-- ==== Sys2Proof/Word.lean ====
section
/-! DEFINITION. The word types of the ZT1612 and the names of its twelve positions. -/

namespace Sys2Proof

/-- One data character of the bench link, or one byte of an optical-port frame. -/
abbrev Byte := BitVec 8

/-- Two bytes of a payload. -/
abbrev Word16 := BitVec 16

/-- Three bytes of a payload (the units ug and up, the divisor K). -/
abbrev Word24 := BitVec 24

/-- Four bytes of a payload, a run id, or the module millisecond count (R7). -/
abbrev Word32 := BitVec 32

/-- A position of the module. Index 0 is position 1 and index 11 is position 12 (section 4.5). -/
abbrev Pos := Fin 12

/-- The positions in ascending order. -/
def allPos : List Pos := [0, 1, 2, 3, 4, 5, 6, 7, 8, 9, 10, 11]

/-- The number 1..12 that a cell or a record carries for a position. -/
def posNumber (p : Pos) : Nat := p.val + 1

/-- One value for each position. -/
abbrev PerPos (α : Type) := Vector α 12

end Sys2Proof
end

