-- ==== Sys2Proof/Config.lean ====
section
/-! DEFINITION. The fixed sizes of the part, and the values the spec leaves open. -/

namespace Sys2Proof.Config

/-- Slots of the seal record store (10.1). -/
def storeSlots : Nat := 1024

/-- Slots of one sector (10.1). -/
def sectorSlots : Nat := 16

/-- Cells the answer queue holds (R184). -/
def answerPlaces : Nat := 8

/-- Cells the report queue holds (R184). -/
def reportPlaces : Nat := 16

/-- Cells the forward FIFO holds (R182). -/
def forwardPlaces : Nat := 4

/-- Entries the SEAL_DONE list holds (R189). -/
def sealDonePlaces : Nat := 24

/-- The figure of queued, running and owed jobs at which a SEAL frame is refused BUSY (R168). -/
def sealJobLimit : Nat := 28

/-- The limit at which a gate's reference count m holds (R9). -/
def countLimit : Nat := 4294967295

/-- Milliseconds of reference silence that raise REF_LOST (R11). -/
def quietLimit : Nat := 1000

/-- The limit at which a link tally holds (R181, R182, R184, R189). -/
def tallyLimit : Nat := 65535

/-- Bytes of one reply that the reply buffer holds (R140). -/
def replyBytes : Nat := 256

/-- Reply bytes that one PORT answer carries (R185). -/
def answerBytes : Nat := 245

/-- Microseconds one character of the bench link lasts (11.1: 10 bit times at 2 Mbit/s). -/
def linkCharMicros : Nat := 5

/-- The order in which the module's own acts that are due at one time are taken. The part does not fix it (R12, R14,
R45, R139 and the other meetings): which of the acts still to be taken comes next, at a microsecond count and with so
many of them left. A free value (assumption 3). A meter edge sampled at the tick that makes an act due comes before
all of them, by assumption 34. -/
opaque meetingOrder : Nat → Nat → Nat

/-- The code that byte 91 of the position record and the GATE_RESULT report carry for a gate outcome, by
the outcome's place in the order of 4.8. The spec states no code for it. A free value (assumption 6). -/
opaque gateOutcomeCode : Nat → Byte

end Sys2Proof.Config
end

