-- ==== Sys2Proof/Syntax.lean ====
section
/-! DEFINITION. The commands and events of the ZT1612: one constructor of `Instr` for each row of
spec/opcode_table.json, with the operands its rule names. A record operand holds its payload fields as
the cell carries them (11.7), before any of them is judged. -/

namespace Sys2Proof

/-- How a command that may be broadcast reached the module (R186). -/
inductive Via where
  | addressed (tag : Byte)
  | broadcast
deriving DecidableEq, Repr

/-- A direction of change of REF_IN (R8). -/
inductive RefEdge where
  | rising
  | falling
deriving DecidableEq, Repr

/-- The two bench-link ports (11.1). -/
inductive LinkPort where
  | up
  | down
deriving DecidableEq, Repr

/-- A character on the receive line of a port channel, as it stands there: its data bits (with 7 of them the
eighth bit of the byte is none of its bits), the level of its parity bit (not read where the profile has no
parity) and that of its stop bit, and the microseconds the line was idle before it, from the end of the stop bit
of the character before (R133, R140; assumption 16). -/
structure RxChar where
  byte   : Byte
  parity : Bool
  stop   : Bool
  idle   : Nat
deriving DecidableEq, Repr

/-- How far the running flash operation had come when power was lost: the acts of it that were done,
and whether the next one was cut part-way (R177). The acts of an erase are its slots, one by one (assumption 9). -/
structure FlashCut where
  done : Nat
  torn : Bool
deriving DecidableEq, Repr

/-- A step record as PLAN_WRITE carries it, bytes 1..52 of the layout of 11.7. -/
structure StepRecord where
  kind      : Byte
  trigger   : Byte
  delay     : Word16
  cref      : Word32
  refEdge   : Byte
  gateMode  : Byte
  gateArg   : Word32
  gates     : Byte
  warmUp    : Byte
  extra     : Byte
  noise     : Byte
  lower     : Word32
  upper     : Word32
  spread    : Word32
  timeout   : Word32
  tangent   : Word16
  clock     : Byte
  divisor   : Word24
  window    : Word32
  allowance : Byte
  unit      : Word32
  digits    : Byte
  settle    : Word16
deriving DecidableEq, Repr

/-- A port profile as PROFILE_WRITE carries it (8.1, 11.7). -/
structure ProfileRecord where
  divisor  : Word16
  dataBits : Byte
  parity   : Byte
  stopBits : Byte
  gap      : Word16
  codeAt   : Byte
  checksum : Byte
  start    : Byte
deriving DecidableEq, Repr

/-- A template as TEMPLATE_WRITE carries it (8.3, 11.7). -/
structure TemplateRecord where
  timeout  : Word16
  offset   : Byte
  length   : Byte
  encoding : Byte
  body     : List Byte
deriving DecidableEq, Repr

/-- One patch field of a rule record as the cell carries it (9.1, 11.7). -/
structure PatchRecord where
  offset : Byte
  source : Byte
  order  : Byte
deriving DecidableEq, Repr

/-- A rule record as RULE_WRITE carries it, bytes 1..19 of the layout of 11.7. -/
structure RuleRecord where
  enabled     : Byte
  value       : Word16
  mask        : Word16
  action      : Byte
  allowed     : Byte
  expectReply : Byte
  timeout     : Byte
  patchCount  : Byte
  patch1      : PatchRecord
  patch2      : PatchRecord
  ackPresent  : Byte
  ackOffset   : Byte
  ackByte     : Byte
deriving DecidableEq, Repr

/-- The payload of POSITION_LOAD (11.7). -/
structure LoadRecord where
  position  : Byte
  cmut      : Word32
  line      : Byte
  deadTime  : Word16
  gainWidth : Byte
  gainUnit  : Word24
  phaseWidth : Byte
  phaseUnit : Word24
  carried   : Byte
  gain      : Word16
  phase     : Word16
deriving DecidableEq, Repr

/-- The rows of spec/opcode_table.json: what the module can be given, from its lines, its ports, its
flash and its own enabled acts. -/
inductive Instr where
  -- resets and the start-up scan
  | powerOn (cut : FlashCut)
  | fullResetAct
  | scanDone
  -- pulse lines, reference and control lines
  | candidateEdge (p : Pos)
  | referenceEdge (edge : RefEdge) (gapNs : Nat)
  | refLost
  | syncEdge
  | sourceReadyAssertion
  -- expiries
  | triggerDelayExpiry
  | windowEnd
  | settleExpiry
  | gateTimeout (p : Pos)
  -- port channels
  | transactionStart (p : Pos)
  | sendingEnd (p : Pos)
  | firstStartBit (p : Pos)
  | replyTimeout (p : Pos)
  | replyEnd (p : Pos) (chars : List RxChar)
  | heldAnswerTaken
  -- flash jobs
  | jobStart
  | headerJobEnd (ok : Bool)
  | bodyJobEnd (ok : Bool)
  | fullRecordJobEnd (ok : Bool)
  | collectJobEnd (failed : List Nat)
  | eraseJobEnd (ok : Bool)
  -- bench link
  | upCellReceived (chars : List Byte)
  | downCellReceived (chars : List Byte)
  | downForwardSend
  | upCellBoundary
  | reportBuild
  -- commands
  | unknownKind (tag : Byte)
  | statusRead (tag : Byte)
  | settingsWrite (tag : Byte) (limit : Byte) (reports : Byte)
  | settingsRead (tag : Byte)
  | moduleResetRun (via : Via)
  | moduleResetFull (tag : Byte)
  | profileWrite (tag : Byte) (r : ProfileRecord)
  | profileRead (tag : Byte)
  | templateWrite (tag : Byte) (which : Byte) (r : TemplateRecord)
  | templateRead (tag : Byte) (which : Byte)
  | identify (tag : Byte) (mask : Word16)
  | ruleWrite (tag : Byte) (index : Byte) (r : RuleRecord)
  | ruleRead (tag : Byte) (index : Byte)
  | planWrite (tag : Byte) (slot : Byte) (r : StepRecord)
  | planRead (tag : Byte) (slot : Byte)
  | planClear (tag : Byte) (slot : Byte)
  | stepRun (via : Via) (slot : Byte) (run : Word32)
  | stepQueue (via : Via) (slot : Byte) (run : Word32)
  | stepAbort (via : Via)
  | positionLoad (tag : Byte) (r : LoadRecord)
  | positionClear (tag : Byte) (position : Byte)
  | positionIncludeOn (tag : Byte) (position : Byte)
  | positionIncludeOff (tag : Byte) (position : Byte)
  | positionRead (tag : Byte) (position : Byte)
  | resultRead (tag : Byte) (position : Byte) (stepNo : Byte)
  | correctionCompute (tag : Byte) (mask : Word16) (a : Byte) (b : Option Byte)
  | verifyEvaluate (tag : Byte) (mask : Word16) (steps : List Byte)
  | port (tag : Byte) (position : Byte) (frame : List Byte)
  | storeStatus (tag : Byte)
  | storeRead (tag : Byte) (slot : Word16)
  | storeCollect (tag : Byte) (number : Word32)
  | storeErase (tag : Byte) (sector : Byte)
  -- line and receiver events that leave no other trace
  | sourceReadyFall
  | syncInFall
  | unselectedTransition (p : Pos)
  | fillBeforeCellComplete (port : LinkPort)
deriving DecidableEq, Repr

end Sys2Proof
end

