-- ==== Sys2Proof/Machine/State.lean ====
section
/-! DEFINITION. The state of the ZT1612, block by block (section 2 of the scope file), as plain data, and
its value right after power-on. INVENTORY.md lists each field with the rule that names it. -/

namespace Sys2Proof.Machine

/-! ### Pulse Input Unit (chapter 1) -/

/-- What the edge select of a position picks (R4). -/
inductive EdgeSelect where
  | rising
  | falling
  | both
deriving DecidableEq, Repr

/-- The pulse-line settings of a position record (1.1, 2.1). -/
structure LineSettings where
  inverted : Bool
  filterOn : Bool
  edge     : EdgeSelect
  deadTime : Nat
deriving DecidableEq, Repr

/-- One meter line: the pin's level, the last three samples after polarity (oldest first), the filtered
value, the last accepted edge time and the gate reject tally (R1, R2, R5, R6). -/
structure Line where
  level        : Bool
  oldest       : Bool
  middle       : Bool
  newest       : Bool
  filtered     : Bool
  lastAccepted : Option Nat
  tally        : Nat
deriving DecidableEq, Repr

/-- The reference presence monitor: DISARMED, or ARMED with its quiet time in ms (R11). -/
inductive Monitor where
  | disarmed
  | armed (quiet : Nat)
deriving DecidableEq, Repr

/-- The clock source of the window timer (R13). -/
inductive TimerClock where
  | ms
  | refK
deriving DecidableEq, Repr

/-- The window timer (R13): COUNTING or STOPPED, count, match value, source, and for REF/K the divisor K
and the prescaler remainder. -/
structure WindowTimer where
  counting   : Bool
  count      : Nat
  matchValue : Nat
  clock      : TimerClock
  divisor    : Nat
  remainder  : Nat
deriving DecidableEq, Repr

/-- The state the PIU owns. `micros` is the free-running microsecond count (R1), `millis` the module
millisecond count (R7), `sync` and `source` the previous samples of SYNC_IN and SOURCE_READY (R16, R17). -/
structure Piu where
  micros  : Nat
  millis  : Word32
  lines   : PerPos Line
  sync    : Bool
  source  : Bool
  monitor : Monitor
  timer   : WindowTimer
deriving DecidableEq, Repr

/-! ### Position Table (chapter 2) -/

/-- The life-cycle states of a position (2.2). -/
inductive PosState where
  | empty
  | loaded
  | trimmed
  | verified
  | sealing
  | sealed
deriving DecidableEq, Repr

/-- The verdicts a position can receive (R28, 5.7). -/
inductive Verdict where
  | pass
  | fail
  | unstable
  | noisy
  | noPulse
  | overrange
  | refLost
  | noReply
  | badReading
  | aborted
deriving DecidableEq, Repr

/-- The kinds of step (3.1). -/
inductive StepKind where
  | error
  | creep
  | start
  | register
deriving DecidableEq, Repr

/-- The triggers of a step (R43). -/
inductive Trigger where
  | immediate
  | syncEdge
  | sourceReady
deriving DecidableEq, Repr

/-- The fields of an entry that depend on the step kind (R30). An ERROR entry's last field is the mean
and the spread. -/
inductive EntryFields where
  | error (k a : Nat) (nUsed : Option Nat) (stats : Option (Int × Nat))
  | creep (count : Nat)
  | start (firstPulse : Option Nat)
  | register (r0 r1 : Option Nat) (regError : Option Int)
deriving DecidableEq, Repr

/-- One entry of the step result list (R30). -/
structure Entry where
  verdict   : Verdict
  runId     : Word32
  saturated : Bool
  nClamped  : Bool
  fields    : EntryFields
deriving DecidableEq, Repr

/-- The outcomes of a closed gate (R65). -/
inductive GateOutcome where
  | discarded
  | overrange
  | zeroRef
  | noisy
  | accepted
deriving DecidableEq, Repr

/-- The latest gate result record (R74). -/
structure GateResult where
  index     : Nat
  outcome   : GateOutcome
  error     : Option Int
  n         : Nat
  m         : Nat
  tally     : Nat
  saturated : Bool
  nClamped  : Bool
  overrange : Bool
deriving DecidableEq, Repr

/-- The meter's constants, absent in an EMPTY record (2.1, R20). -/
structure MeterConstants where
  cmut       : Nat
  gainWidth  : Nat
  gainUnit   : Nat
  phaseWidth : Nat
  phaseUnit  : Nat
deriving DecidableEq, Repr

/-- A correction waiting to be written: a gain word, and a phase word that is present or absent (2.1). -/
structure Correction where
  gain  : Int
  phase : Option Int
deriving DecidableEq, Repr

/-- What is being written into the meter (2.1). -/
inductive WriteInFlight where
  | none
  | trim
  | seal
deriving DecidableEq, Repr

/-- A position record (2.1). -/
structure PositionRecord where
  state        : PosState
  included     : Bool
  line         : LineSettings
  meter        : Option MeterConstants
  gain         : Int
  phase        : Int
  correction   : Option Correction
  outOfTrim    : Bool
  trimRounds   : Nat
  serial       : Option (List Byte)
  runId        : Option Word32
  results      : Vector (Option Entry) 32
  verification : List (Nat × Int)
  inFlight     : WriteInFlight
  latestGate   : Option GateResult
deriving DecidableEq, Repr

/-- The state the PT owns: the twelve records and the module settings (R36, R125). -/
structure Pt where
  positions   : PerPos PositionRecord
  trimLimit   : Nat
  gateReports : Bool
deriving DecidableEq, Repr

/-! ### Plan and Step Control (chapters 3 and 6) -/

/-- The module step state (3.2). -/
inductive StepState where
  | idle
  | readBefore
  | armed
  | settling
  | running
  | settleAfter
  | readAfter
  | complete
deriving DecidableEq, Repr

/-- A slot number with a run id (3.2). -/
structure StepRef where
  slot : Fin 32
  run  : Word32
deriving DecidableEq, Repr

/-- The use the PSC makes of the window timer (3.2, R45). -/
inductive TimerUse where
  | none
  | triggerDelay
  | window
  | settle
deriving DecidableEq, Repr

/-- The last step event (R54). -/
inductive StepEvent where
  | armed
  | running
  | windowEnd
  | complete
  | aborted
deriving DecidableEq, Repr

/-- The window record of a CREEP or START position (6.1). -/
structure WindowRecord where
  count   : Nat
  waiting : Bool
  decided : Bool
deriving DecidableEq, Repr

/-- The read state of a register context (6.3). -/
inductive ReadState where
  | none
  | owed
  | placed
  | active
  | taken
deriving DecidableEq, Repr

/-- The register context of a REGISTER position (6.3). -/
structure RegContext where
  read : ReadState
  r0   : Option Nat
  r1   : Option Nat
deriving DecidableEq, Repr

/-- The state the PSC owns. `useNo` numbers the start requests made to the window timer and `raised`
holds the expiries raised and not yet taken, each with the number of its start (R45). `windowStart` is the
millisecond count at the start request of a CREEP or START window (R100). -/
structure Psc where
  plan        : Vector (Option StepRecord) 32
  stepState   : StepState
  active      : Option StepRef
  last        : Option StepRef
  queued      : Option StepRef
  running     : List Pos
  timerUse    : TimerUse
  useNo       : Nat
  raised      : List (TimerUse × Nat)
  lastEvent   : Option StepEvent
  windows     : PerPos (Option WindowRecord)
  windowStart : Word32
  regs        : PerPos (Option RegContext)
deriving DecidableEq, Repr

/-! ### Gate Engine (chapter 4) -/

/-- The gate state (4.1). -/
inductive GateState where
  | seek
  | opened
  | done
deriving DecidableEq, Repr

/-- What a gate latches at its opening (R59). -/
structure GateLatch where
  n        : Nat
  cref     : Nat
  cmut     : Nat
  nClamped : Bool
deriving DecidableEq, Repr

/-- A gate context (4.1). `latch` is absent until the first opening, `bounds` is the error min and max. -/
structure GateContext where
  state        : GateState
  index        : Nat
  latch        : Option GateLatch
  count        : Nat
  m            : Nat
  overrange    : Bool
  discards     : Nat
  attempts     : Nat
  accepted     : Nat
  errorSum     : Int
  bounds       : Option (Int × Int)
  saturated    : Bool
  nClamped     : Bool
  timeoutStart : Word32
deriving DecidableEq, Repr

/-! ### Port Channels (chapter 8) and the relay requests of the Frame Rule Table (chapter 9) -/

/-- The parity of a character (8.1). -/
inductive Parity where
  | none
  | even
  | odd
deriving DecidableEq, Repr

/-- The checksum kinds (R134). -/
inductive ChecksumKind where
  | none
  | sum8
  | xor8
  | crc16
deriving DecidableEq, Repr

/-- The port profile (8.1); stop bits are always 1. -/
structure Profile where
  divisor   : Nat
  sevenBits : Bool
  parity    : Parity
  gap       : Nat
  codeAt    : Nat
  checksum  : ChecksumKind
  start     : Nat
deriving DecidableEq, Repr

/-- The actions of a frame rule (9.1). -/
inductive Action where
  | relay
  | block
  | trimWrite
  | seal
deriving DecidableEq, Repr

/-- The patch sources (9.1). -/
inductive PatchSource where
  | gain
  | phase
  | sealNumber
  | position
deriving DecidableEq, Repr

/-- A patch field (9.1). -/
structure Patch where
  offset : Nat
  source : PatchSource
  little : Bool
deriving DecidableEq, Repr

/-- An ack test (9.1). -/
structure AckTest where
  offset   : Nat
  expected : Byte
deriving DecidableEq, Repr

/-- The states a rule allows (9.1). -/
structure AllowedStates where
  loaded   : Bool
  trimmed  : Bool
  verified : Bool
  sealed   : Bool
deriving DecidableEq, Repr

/-- A frame rule (9.1). The reply timeout is in ms. -/
structure FrameRule where
  enabled     : Bool
  value       : Word16
  mask        : Word16
  action      : Action
  allowed     : AllowedStates
  expectReply : Bool
  timeout     : Nat
  patches     : List Patch
  ack         : Option AckTest
deriving DecidableEq, Repr

/-- What a relay request does besides relaying: nothing, carry the patched words of a trim, or carry a
seal number (R153, R160, R168). -/
inductive RelayKind where
  | plain
  | trim (gain : Int) (phase : Option Int)
  | seal (number : Nat)
deriving DecidableEq, Repr

/-- A relay request (R153). -/
structure RelayRequest where
  tag         : Byte
  frame       : List Byte
  sendable    : Bool
  expectReply : Bool
  timeout     : Nat
  kind        : RelayKind
  ack         : Option AckTest
deriving DecidableEq, Repr

/-- A template request: IDENTIFY, or REGISTER_READ with the register digits (R107, R145). -/
inductive TemplateRequest where
  | identify
  | registerRead (digits : Nat)
deriving DecidableEq, Repr

/-- The owner of a transaction, with its copy of the template where it has one (8.4, R138). -/
inductive Owner where
  | relay (r : RelayRequest)
  | identify (t : TemplateRecord)
  | registerRead (digits : Nat) (t : TemplateRecord)
deriving DecidableEq, Repr

/-- A transaction in progress (8.4). The timeout is in ms. -/
structure Transaction where
  owner       : Owner
  frame       : List Byte
  expectReply : Bool
  timeout     : Nat
  profile     : Profile
deriving DecidableEq, Repr

/-- Transaction outcomes in PORT answers (R192). -/
inductive PortOutcome where
  | replied
  | sent
  | acked
  | nacked
  | noReply
  | aborted
deriving DecidableEq, Repr

/-- A checksum result (R135). -/
inductive ChecksumResult where
  | notChecked
  | ok
  | bad
deriving DecidableEq, Repr

/-- The deferred answer of a PORT command (R141, R185, R169): an outcome with the reply, or the status
STORE_FULL alone. -/
inductive PortAnswer where
  | ended (tag : Byte) (outcome : PortOutcome) (reply : List Byte) (truncated : Bool) (sum : ChecksumResult)
  | storeFull (tag : Byte)
deriving DecidableEq, Repr

/-- The relay slot of a channel: empty, a waiting request, or an ended one awaiting its answer (8.4). -/
inductive RelaySlot where
  | empty
  | waiting (r : RelayRequest)
  | ended (a : PortAnswer)
deriving DecidableEq, Repr

/-- The channel state with what it carries (8.4): ms ticks waited in AWAIT_REPLY (R139), the answer held in
REPLY_HELD (R141). -/
inductive ChannelState where
  | idle
  | sending (t : Transaction)
  | awaitReply (t : Transaction) (waited : Nat)
  | receiving (t : Transaction)
  | replyHeld (a : PortAnswer)
deriving DecidableEq, Repr

/-- The reply buffer with its marks (8.4). -/
structure ReplyBuffer where
  bytes     : List Byte
  truncated : Bool
  charError : Bool
deriving DecidableEq, Repr

/-- A character on its way out on OPT_TX: the levels of its bits in the order they are sent, the microseconds
one bit lasts, and those the character still takes (R133). -/
structure WireChar where
  levels    : List Bool
  bitMicros : Nat
  left      : Nat
deriving DecidableEq, Repr

/-- A port channel (8.4). `wire` holds the characters that OPT_TX still has to send, the one on the line first:
those of the frame in SENDING, and the character that an ended transaction left to be completed (R133, R144). -/
structure Channel where
  state    : ChannelState
  wire     : List WireChar
  buffer   : ReplyBuffer
  internal : Option TemplateRequest
  relay    : RelaySlot
deriving DecidableEq, Repr

/-- The last identify outcome (R145). -/
inductive IdentifyOutcome where
  | serial
  | noReply
  | badReading
  | aborted
deriving DecidableEq, Repr

/-- The state the PCH owns: the profile, the two templates, the channels and the last identify outcomes
(8.1 to 8.6). -/
structure Pch where
  profile      : Profile
  identify     : TemplateRecord
  registerRead : TemplateRecord
  channels     : PerPos Channel
  identified   : PerPos (Option IdentifyOutcome)
deriving DecidableEq, Repr

/-! ### Seal Record Store (chapter 10) -/

/-- A part of a store slot: erased, programmed with good contents, or programmed with contents whose check
fails (R165). -/
inductive Part (α : Type) where
  | erased
  | good (x : α)
  | spoiled
deriving DecidableEq, Repr

/-- The header of a slot, its kind being PENDING (10.1). -/
structure Header where
  number  : Nat
  pos     : Pos
  address : BitVec 4
deriving DecidableEq, Repr

/-- Void reasons (R170). -/
inductive VoidReason where
  | nack
  | noReply
  | aborted
deriving DecidableEq, Repr

/-- The kind of a finished record (10.1, R170). -/
inductive RecordKind where
  | sealed
  | void (reason : VoidReason)
deriving DecidableEq, Repr

/-- The fields a body holds (10.1, R170). -/
structure SealBody where
  kind         : RecordKind
  runId        : Option Word32
  serial       : Option (List Byte)
  trimRounds   : Nat
  gain         : Int
  phase        : Int
  verification : List (Nat × Int)
deriving DecidableEq, Repr

/-- The nonvolatile contents of a slot (10.1). A failure note holds the seal number of the failed job, or
no number. -/
structure SlotContents where
  header    : Part Header
  body      : Part SealBody
  valid     : Bool
  collected : Bool
  note      : Option (Option Nat)
deriving DecidableEq, Repr

/-- A reservation, kept in RAM: the seal number and the position it is made for (R166). -/
structure Reservation where
  number : Nat
  pos    : Pos
deriving DecidableEq, Repr

/-- The slot states of the RAM view (10.1). -/
inductive SlotState where
  | erased
  | reserved
  | valid
  | incomplete
  | bad
deriving DecidableEq, Repr

/-- The flash jobs (R172). -/
inductive Job where
  | header (slot : Nat) (h : Header)
  | body (slot : Nat) (h : Header) (b : SealBody)
  | fullRecord (slot : Nat) (h : Header) (b : SealBody)
  | collect (number : Nat)
  | erase (sector : Nat)
deriving DecidableEq, Repr

/-- One programming or erasing act of a flash job on one slot (10.1, R172). -/
inductive FlashAct where
  | header (slot : Nat) (h : Header)
  | body (slot : Nat) (b : SealBody)
  | validMark (slot : Nat)
  | collectedMark (slot : Nat)
  | eraseSlot (slot : Nat)
deriving DecidableEq, Repr

/-- The start-up scan: waiting for the flash operation in progress, scanning, or over (R177, R178). -/
inductive ScanPhase where
  | waiting
  | scanning
  | over
deriving DecidableEq, Repr

/-- The last store event (R174, R176, R177, R180). -/
inductive StoreEvent where
  | scanDone
  | collectDone (number : Nat) (marked failed : Nat)
  | eraseDone (sector : Nat)
  | eraseFailed (sector : Nat)
deriving DecidableEq, Repr

/-- A live seal flow of a position: its seal number and the slot reserved for it (R167 to R170). -/
structure SealFlow where
  number : Nat
  slot   : Nat
deriving DecidableEq, Repr

/-- The state the SRS owns. `contents` is the nonvolatile store and `reserved` the RAM reservations, each
a table in canonical form (`Table.wf`): slots strictly rising, and no slot listed that is erased or, for
`reserved`, not reserved. `highest` is the highest seal number present with its sector (R165). -/
structure Srs where
  contents  : List (Nat × SlotContents)
  reserved  : List (Nat × Option Reservation)
  pointer   : Nat
  nextSeal  : Nat
  highest   : Option (Nat × Nat)
  phase     : ScanPhase
  queue     : List Job
  running   : Option Job
  flows     : PerPos (Option SealFlow)
  lastEvent : Option StoreEvent
deriving DecidableEq, Repr

/-! ### Bench Link Interface (chapter 11) -/

/-- A cell of the bench link without its sync byte and its CRC, which are functions of the rest (R181). -/
structure Cell where
  dest    : Byte
  source  : Byte
  kind    : Byte
  tag     : Byte
  payload : List Byte
deriving DecidableEq, Repr

/-- The status codes of R192. -/
inductive Status where
  | ok
  | busy
  | badArg
  | badState
  | unknownKind
  | noRule
  | wrongState
  | blocked
  | shortFrame
  | noCorrection
  | trimLimit
  | storeFull
  | notCollected
  | newestSector
deriving DecidableEq, Repr

/-- The content of an ANSWER cell: a status, and the bytes after it (11.7). -/
structure Reply where
  status : Status
  bytes  : List Byte
deriving DecidableEq, Repr

/-- A cell the module sends of its own; `actsFull` marks the answer at whose last byte a FULL reset acts
(R187). -/
structure OutCell where
  cell     : Cell
  actsFull : Bool
deriving DecidableEq, Repr

/-- What a transmitter is sending, with the microseconds left of it (11.1, R183). -/
structure Sending where
  out  : OutCell
  left : Nat
deriving DecidableEq, Repr

/-- A port receiver: HUNT, or CELL with the bytes taken after the sync byte (R181). -/
inductive Receiver where
  | hunt
  | cell (bytes : List Byte)
deriving DecidableEq, Repr

/-- The report marks of a position (R189). A STEP_VERDICT mark holds a step number. -/
structure PosMarks where
  verdict  : Option (Fin 32)
  identify : Bool
  gate     : Bool
deriving DecidableEq, Repr

/-- A SEAL_DONE entry (R171): a record without a slot is RECORD_LOST. -/
structure SealDone where
  pos    : Pos
  number : Nat
  slot   : Option Nat
  kind   : RecordKind
deriving DecidableEq, Repr

/-- Where a held answer is held (R185). -/
inductive HeldAt where
  | channel (p : Pos)
  | slot (p : Pos)
deriving DecidableEq, Repr

/-- The state the BLI owns (chapter 11). -/
structure Bli where
  rxUp          : Receiver
  rxDown        : Receiver
  txUp          : Option Sending
  txDown        : Option Sending
  downBuffer    : List Cell
  forward       : List Cell
  answers       : List OutCell
  reports       : List Cell
  owed          : Nat
  held          : List HeldAt
  markRefLost   : Bool
  markStepState : Bool
  markStore     : Bool
  marks         : PerPos PosMarks
  sealDone      : List SealDone
  upErrors      : Nat
  downErrors    : Nat
  forwardDrops  : Nat
  commandDrops  : Nat
  sealDrops     : Nat
  fullPending   : Bool
deriving DecidableEq, Repr

/-! ### The whole machine -/

/-- The state of the module. `strap` is the address strap ADDR[3:0] (section 6), `rules` the frame rule
table (chapter 9), `gates` the gate contexts (chapter 4). `pending` is the queue of commands and events
that wait to be taken, first in first out. -/
structure State where
  strap   : BitVec 4
  piu     : Piu
  pt      : Pt
  psc     : Psc
  gates   : PerPos (Option GateContext)
  pch     : Pch
  rules   : Vector FrameRule 16
  srs     : Srs
  bli     : Bli
  pending : List Instr
deriving DecidableEq, Repr

/-- Why the machine stops with a fault. No meaning of this model raises one: the spec gives every row an
effect. -/
inductive Fault where
  /-- Raised by nothing. Safe: it only names the absence of a fault in the spec. -/
  | neverRaised
deriving DecidableEq, Repr

/-- Why a command has no meaning. -/
inductive Refusal where
  /-- Raised by an arm of `exec` for a row that has no meaning yet. Safe: the machine stops. -/
  | notModelled (mnemonic : String)
deriving DecidableEq, Repr

/-! ### Values after power-on -/

/-- The line settings of an EMPTY position (R20). -/
def LineSettings.default : LineSettings :=
  { inverted := false, filterOn := true, edge := .rising, deadTime := 0 }

/-- An EMPTY position record (R20). -/
def PositionRecord.cleared : PositionRecord :=
  { state := .empty, included := false, line := .default, meter := none, gain := 0, phase := 0,
    correction := none, outOfTrim := false, trimRounds := 0, serial := none, runId := none,
    results := Vector.replicate 32 none, verification := [], inFlight := .none, latestGate := none }

/-- A meter line reloaded with one sample (R3). -/
def Line.loaded (level sample : Bool) : Line :=
  { level := level, oldest := sample, middle := sample, newest := sample, filtered := sample,
    lastAccepted := none, tally := 0 }

/-- The window timer after a reset (R18). The divisor is not used with source MS. -/
def WindowTimer.stopped : WindowTimer :=
  { counting := false, count := 0, matchValue := 0, clock := .ms, divisor := 1, remainder := 0 }

/-- The profile after a reset (8.1). -/
def Profile.default : Profile :=
  { divisor := 103, sevenBits := false, parity := .none, gap := 35, codeAt := 1, checksum := .none,
    start := 0 }

/-- An empty template (R136); its other fields are zero (assumption 5). -/
def blankTemplate : TemplateRecord :=
  { timeout := 0, offset := 0, length := 0, encoding := 0, body := [] }

/-- An empty reply buffer. -/
def ReplyBuffer.empty : ReplyBuffer := { bytes := [], truncated := false, charError := false }

/-- A channel after a reset, its line still completing these characters (R144, R147). -/
def Channel.resetWith (wire : List WireChar) : Channel :=
  { state := .idle, wire := wire, buffer := .empty, internal := none, relay := .empty }

/-- A channel with nothing to do. -/
def Channel.idle : Channel := .resetWith []

/-- A rule of index 0..14 after a reset (R164). -/
def FrameRule.off : FrameRule :=
  { enabled := false, value := 0, mask := 0, action := .relay,
    allowed := { loaded := false, trimmed := false, verified := false, sealed := false },
    expectReply := true, timeout := 500, patches := [], ack := none }

/-- Rule 15 after a reset (R164). -/
def FrameRule.relayAll : FrameRule :=
  { FrameRule.off with
    enabled := true, mask := 0xFFFF,
    allowed := { loaded := true, trimmed := true, verified := true, sealed := false } }

/-- The rule table after a reset (R164). -/
def resetRules : Vector FrameRule 16 := (Vector.replicate 16 FrameRule.off).set 15 FrameRule.relayAll

/-- An erased slot (10.1): what a slot the store does not list holds. -/
def SlotContents.erased : SlotContents :=
  { header := .erased, body := .erased, valid := false, collected := false, note := none }

/-- No mark set. -/
def PosMarks.clear : PosMarks := { verdict := none, identify := false, gate := false }

/-- The PT after power-on or a FULL reset (R36, R125). -/
def Pt.reset : Pt :=
  { positions := Vector.replicate 12 PositionRecord.cleared, trimLimit := 3, gateReports := false }

/-- The PSC after power-on or a FULL reset (R56). -/
def Psc.reset : Psc :=
  { plan := Vector.replicate 32 none, stepState := .idle, active := none, last := none, queued := none,
    running := [], timerUse := .none, useNo := 0, raised := [], lastEvent := none,
    windows := Vector.replicate 12 none, windowStart := 0, regs := Vector.replicate 12 none }

/-- The PIU after power-on or a FULL reset (R18), from the levels its lines have: every position is EMPTY,
so each sample is the level itself. -/
def Piu.reset (levels : PerPos Bool) (sync source : Bool) : Piu :=
  { micros := 0, millis := 0, lines := levels.map (fun l => Line.loaded l l), sync := sync,
    source := source, monitor := .disarmed, timer := .stopped }

/-- The PCH after power-on or a FULL reset, with channels that have nothing to do (R147). -/
def Pch.reset (channels : PerPos Channel) : Pch :=
  { profile := .default, identify := blankTemplate, registerRead := blankTemplate,
    channels := channels, identified := Vector.replicate 12 none }

/-- The BLI after power-on or a FULL reset (R191). -/
def Bli.reset : Bli :=
  { rxUp := .hunt, rxDown := .hunt, txUp := none, txDown := none, downBuffer := [], forward := [],
    answers := [], reports := [], owed := 0, held := [], markRefLost := false, markStepState := false,
    markStore := false, marks := Vector.replicate 12 PosMarks.clear, sealDone := [], upErrors := 0,
    downErrors := 0, forwardDrops := 0, commandDrops := 0, sealDrops := 0, fullPending := false }

/-- The SRS when a reset begins its start-up scan over given contents, with no flash operation in progress (R177).
The pointer, the next seal number and the highest number are set by the scan; until then they are absent (R178) and
stand at the values of an empty store (assumption 4). -/
def Srs.reset (contents : List (Nat × SlotContents)) : Srs :=
  { contents := contents, reserved := [], pointer := 0, nextSeal := 1, highest := none, phase := .scanning,
    queue := [], running := none, flows := Vector.replicate 12 none, lastEvent := none }

/-- The module right after power-on: strapped as module 1, every line low, an erased store, its start-up
scan in progress (R18, R36, R56, R80, R116, R147, R164, R177, R191; assumption 1 for the strap, the
lines and the store). -/
def State.reset : State :=
  { strap := 1, piu := Piu.reset (Vector.replicate 12 false) false false, pt := Pt.reset,
    psc := Psc.reset, gates := Vector.replicate 12 none, pch := Pch.reset (Vector.replicate 12 .idle),
    rules := resetRules,
    srs := Srs.reset [], bli := Bli.reset, pending := [] }

end Sys2Proof.Machine
end

