-- ==== Sys2Proof/Machine/Bytes.lean ====
section
/-! DEFINITION. Byte order, and the checksums of the optical port and of the bench link. -/

namespace Sys2Proof.Machine

/-- The lowest `n` bytes of a number, high byte first (11.7). -/
def beBytes : Nat → Nat → List Byte
  | 0, _ => []
  | n + 1, x => BitVec.ofNat 8 (x / 256 ^ n) :: beBytes n x

/-- A signed number in `n` bytes, two's complement, high byte first (11.7). -/
def intBytes (n : Nat) (i : Int) : List Byte := beBytes n (i % (256 ^ n : Nat)).toNat

/-- The number whose bytes, high byte first, these are. -/
def beValue (l : List Byte) : Nat := l.foldl (fun acc b => acc * 256 + b.toNat) 0

/-- A flag as a bit of a flags byte. -/
def flagBit (b : Bool) (place : Nat) : Nat := if b then 2 ^ place else 0

/-- One flag byte from its flags, bit 0 first. -/
def flagByte (flags : List Bool) : Byte :=
  BitVec.ofNat 8 ((flags.zipIdx.map (fun f => flagBit f.1 f.2)).foldl (· + ·) 0)

/-- One step of the CRC with polynomial x^16 + x^12 + x^5 + 1, most significant bit first (R134). -/
def crcShift (crc : Word16) : Word16 :=
  if crc.msb then (crc <<< 1) ^^^ 0x1021 else crc <<< 1

/-- The CRC after one more byte. -/
def crcByte (crc : Word16) (b : Byte) : Word16 :=
  (List.range 8).foldl (fun c _ => crcShift c) (crc ^^^ (b.setWidth 16 <<< 8))

/-- CRC16 of a run of bytes, starting at FFFFh, no inversion at the end (R134, R181). -/
def crc16 (l : List Byte) : Word16 := l.foldl crcByte 0xFFFF

/-- The size of a checksum in bytes (R134). -/
def checksumSize : ChecksumKind → Nat
  | .none => 0
  | .sum8 => 1
  | .xor8 => 1
  | .crc16 => 2

/-- The checksum bytes of a run of covered bytes (R134). -/
def checksumOf : ChecksumKind → List Byte → List Byte
  | .none, _ => []
  | .sum8, l => [l.foldl (· + ·) 0]
  | .xor8, l => [l.foldl (· ^^^ ·) 0]
  | .crc16, l => beBytes 2 (crc16 l).toNat

/-- The checksum of a frame whose bytes before the checksum are `body`: it covers them from offset `start`
on, and covers nothing where `start` is at or past the checksum's place (R134). -/
def frameChecksum (kind : ChecksumKind) (start : Nat) (body : List Byte) : List Byte :=
  checksumOf kind (body.drop start)

/-- A body with its checksum (R136). -/
def withChecksum (kind : ChecksumKind) (start : Nat) (body : List Byte) : List Byte :=
  body ++ frameChecksum kind start body

/-- A frame with the checksum at its end computed anew (R158). -/
def recomputeChecksum (kind : ChecksumKind) (start : Nat) (frame : List Byte) : List Byte :=
  withChecksum kind start (frame.take (frame.length - checksumSize kind))

/-- The checksum result of a reply (R135). -/
def checksumResult (kind : ChecksumKind) (start : Nat) (b : ReplyBuffer) : ChecksumResult :=
  if b.charError then .bad
  else if kind = .none then .notChecked
  else if b.truncated then .bad
  else if b.bytes.length < start + checksumSize kind then .bad
  else if recomputeChecksum kind start b.bytes = b.bytes then .ok
  else .bad

/-- The bytes of a cell the CRC covers: destination through the last payload byte (R181). -/
def Cell.covered (c : Cell) : List Byte :=
  [c.dest, c.source, c.kind, c.tag, BitVec.ofNat 8 c.payload.length] ++ c.payload

/-- The CRC of a cell, high byte first (R181). -/
def Cell.crc (c : Cell) : List Byte := beBytes 2 (crc16 c.covered).toNat

/-- The sync byte (R181). -/
def syncByte : Byte := 0xC5

/-- A whole cell as it is sent (R181). -/
def Cell.bytes (c : Cell) : List Byte := syncByte :: (c.covered ++ c.crc)

end Sys2Proof.Machine
end

