-- ==== Sys2Proof/Machine/Ops.lean ====
section
/-! DEFINITION. The named operations over tables, positions and the parts of the state. Every block reads
and writes the state through these. -/

namespace Sys2Proof.Machine

/-! ### Sparse tables: the nonvolatile store and its reservations -/

/-- What a table holds at a place: the listed value, or the value `d` of an unlisted place. -/
def Table.read {α : Type} (d : α) : List (Nat × α) → Nat → α
  | [], _ => d
  | (k, v) :: t, n => if n = k then v else Table.read d t n

/-- A table with one place written, places rising; writing the unlisted value removes the entry. -/
def Table.write {α : Type} [DecidableEq α] (d : α) : List (Nat × α) → Nat → α → List (Nat × α)
  | [], n, v => if v = d then [] else [(n, v)]
  | (k, w) :: t, n, v =>
    if n < k then (if v = d then (k, w) :: t else (n, v) :: (k, w) :: t)
    else if n = k then (if v = d then t else (n, v) :: t)
    else (k, w) :: Table.write d t n v

/-- The canonical form of a table: places strictly rising, no entry equal to the unlisted value. -/
def Table.wf {α : Type} [DecidableEq α] (d : α) : List (Nat × α) → Bool
  | [] => true
  | (k, v) :: t => t.all (fun e => decide (k < e.1)) && decide (v ≠ d) && Table.wf d t

/-! ### One value for each position -/

/-- The value of a position. -/
def atPos {α : Type} (v : PerPos α) (p : Pos) : α := v[p.val]

/-- The values with that of one position replaced. -/
def putPos {α : Type} (v : PerPos α) (p : Pos) (x : α) : PerPos α := v.set p.val x

/-- An act made for each of some positions in turn. -/
def forEach (l : List Pos) (f : Pos → State → State) (s : State) : State :=
  l.foldl (fun s p => f p s) s

/-- The position a number 1..12 names. -/
def posOf (n : Nat) : Option Pos :=
  if h : 1 ≤ n ∧ n ≤ 12 then some ⟨n - 1, by omega⟩ else none

/-- The positions a mask names, in ascending order (11.7). -/
def maskPositions (mask : Word16) : List Pos := allPos.filter (fun p => mask.getLsbD p.val)

/-- A mask with any of bits 12 to 15 set does not fit its kind (11.7). -/
def maskFits (mask : Word16) : Bool := decide (mask.toNat < 4096)

/-! ### Parts of the state -/

/-- The record of a position. -/
def State.pos (s : State) (p : Pos) : PositionRecord := atPos s.pt.positions p

/-- The state with a position record replaced. -/
def State.setPos (s : State) (p : Pos) (r : PositionRecord) : State :=
  { s with pt := { s.pt with positions := putPos s.pt.positions p r } }

/-- The meter line of a position. -/
def State.line (s : State) (p : Pos) : Line := atPos s.piu.lines p

/-- The state with a meter line replaced. -/
def State.setLine (s : State) (p : Pos) (l : Line) : State :=
  { s with piu := { s.piu with lines := putPos s.piu.lines p l } }

/-- The gate context of a position, if it has one. -/
def State.gate (s : State) (p : Pos) : Option GateContext := atPos s.gates p

/-- The state with a gate context replaced or removed. -/
def State.setGate (s : State) (p : Pos) (g : Option GateContext) : State :=
  { s with gates := putPos s.gates p g }

/-- The window record of a position, if it has one. -/
def State.window (s : State) (p : Pos) : Option WindowRecord := atPos s.psc.windows p

/-- The state with a window record replaced or removed. -/
def State.setWindow (s : State) (p : Pos) (w : Option WindowRecord) : State :=
  { s with psc := { s.psc with windows := putPos s.psc.windows p w } }

/-- The register context of a position, if it has one. -/
def State.reg (s : State) (p : Pos) : Option RegContext := atPos s.psc.regs p

/-- The state with a register context replaced or removed. -/
def State.setReg (s : State) (p : Pos) (c : Option RegContext) : State :=
  { s with psc := { s.psc with regs := putPos s.psc.regs p c } }

/-- The port channel of a position. -/
def State.chan (s : State) (p : Pos) : Channel := atPos s.pch.channels p

/-- The state with a port channel replaced. -/
def State.setChan (s : State) (p : Pos) (c : Channel) : State :=
  { s with pch := { s.pch with channels := putPos s.pch.channels p c } }

/-- The last identify outcome of a position. -/
def State.identified (s : State) (p : Pos) : Option IdentifyOutcome := atPos s.pch.identified p

/-- The state with a last identify outcome replaced. -/
def State.setIdentified (s : State) (p : Pos) (o : Option IdentifyOutcome) : State :=
  { s with pch := { s.pch with identified := putPos s.pch.identified p o } }

/-- The live seal flow of a position, if it has one. -/
def State.flow (s : State) (p : Pos) : Option SealFlow := atPos s.srs.flows p

/-- The state with a seal flow replaced or ended. -/
def State.setFlow (s : State) (p : Pos) (f : Option SealFlow) : State :=
  { s with srs := { s.srs with flows := putPos s.srs.flows p f } }

/-- The report marks of a position. -/
def State.marks (s : State) (p : Pos) : PosMarks := atPos s.bli.marks p

/-- The state with the report marks of a position replaced. -/
def State.setMarks (s : State) (p : Pos) (m : PosMarks) : State :=
  { s with bli := { s.bli with marks := putPos s.bli.marks p m } }

/-- The contents of a store slot (10.1). -/
def Srs.slot (r : Srs) (n : Nat) : SlotContents := Table.read .erased r.contents n

/-- The store with the contents of a slot replaced. -/
def Srs.setSlot (r : Srs) (n : Nat) (c : SlotContents) : Srs :=
  { r with contents := Table.write .erased r.contents n c }

/-- The reservation of a slot, if it is reserved (R166). -/
def Srs.reservation (r : Srs) (n : Nat) : Option Reservation := Table.read none r.reserved n

/-- The store with the reservation of a slot made or dropped. -/
def Srs.setReservation (r : Srs) (n : Nat) (v : Option Reservation) : Srs :=
  { r with reserved := Table.write none r.reserved n v }

/-! ### What the blocks ask of each other -/

/-- A step is active in every step state but IDLE and COMPLETE (R41). -/
def State.stepActive (s : State) : Bool :=
  match s.psc.stepState with
  | .idle => false
  | .complete => false
  | _ => true

/-- The position belongs to the running set of the active step (R27). -/
def State.isRunning (s : State) (p : Pos) : Bool := decide (p ∈ s.psc.running)

/-- The record of the active step, read from its slot (R38). -/
def State.activeRecord (s : State) : Option StepRecord :=
  match s.psc.active with
  | none => none
  | some r => s.psc.plan[r.slot.val]

/-- A REGISTER step is in a reading phase (R55). Only a REGISTER step reaches these states. -/
def State.readingPhase (s : State) : Bool :=
  s.psc.stepState = .readBefore || s.psc.stepState = .readAfter

/-- The start-up scan is in progress, the wait for a running flash operation included (R178). -/
def State.scanning (s : State) : Bool := decide (s.srs.phase ≠ .over)

/-- The positions of the eligibility rule (R27, section 4.6). -/
def eligible (r : PositionRecord) : Bool :=
  r.included && decide (r.inFlight = .none) &&
    (decide (r.state = .loaded) || decide (r.state = .trimmed) || decide (r.state = .verified))

/-- The set the PT answers at a step start (R27). -/
def State.eligibleSet (s : State) : List Pos := allPos.filter (fun p => eligible (s.pos p))

/-- The window timer after a stop request (R14). -/
def WindowTimer.stop (t : WindowTimer) : WindowTimer := { t with counting := false }

/-- The window timer after a start request (R13). A match value of 0 leaves it STOPPED at 0. -/
def WindowTimer.start (clock : TimerClock) (divisor matchValue : Nat) : WindowTimer :=
  { counting := decide (0 < matchValue), count := 0, matchValue := matchValue, clock := clock,
    divisor := divisor, remainder := 0 }

/-- The window timer with its match reached (R13). -/
def WindowTimer.reach (t : WindowTimer) : WindowTimer :=
  { t with counting := false, count := t.matchValue, remainder := 0 }

end Sys2Proof.Machine
end

