-- ==== Sys2Proof/Machine/Operands.lean ====
section
/-! DEFINITION. Operand forms: the codes of record fields, and the ranges and conditions the owners judge
a carried record by (R22, R38, R39, R132, R136, R148, 11.7). -/

namespace Sys2Proof.Machine

/-- A slot number of the step table, 0..31. -/
def stepSlotOf (b : Byte) : Option (Fin 32) := if h : b.toNat < 32 then some ⟨b.toNat, h⟩ else none

/-- A rule index, 0..15. -/
def ruleIndexOf (b : Byte) : Option (Fin 16) := if h : b.toNat < 16 then some ⟨b.toNat, h⟩ else none

/-- A number lies in a range, both bounds included. -/
def inRange (lo hi n : Nat) : Bool := decide (lo ≤ n) && decide (n ≤ hi)

/-- A signed number lies in a range, both bounds included. -/
def inRangeInt (lo hi n : Int) : Bool := decide (lo ≤ n) && decide (n ≤ hi)

/-- A word lies in the signed range of a width (2.1, R122). -/
def inWidth (width : Nat) (w : Int) : Bool := inRangeInt (-(2 ^ (width - 1))) (2 ^ (width - 1) - 1) w

/-! ### Step records (3.1) -/

/-- The kind of a step record: 0 ERROR, 1 CREEP, 2 START, 3 REGISTER. -/
def stepKind (r : StepRecord) : Option StepKind :=
  match r.kind.toNat with
  | 0 => some .error
  | 1 => some .creep
  | 2 => some .start
  | 3 => some .register
  | _ => none

/-- The trigger of a step record: 0 IMMEDIATE, 1 SYNC_EDGE, 2 SOURCE_READY. -/
def stepTrigger (r : StepRecord) : Option Trigger :=
  match r.trigger.toNat with
  | 0 => some .immediate
  | 1 => some .syncEdge
  | 2 => some .sourceReady
  | _ => none

/-- The reference edge of a step record: 0 RISING, 1 FALLING, in the order of the field's values in 3.1
(assumption 6). -/
def stepRefEdge (r : StepRecord) : RefEdge := if r.refEdge.toNat = 1 then .falling else .rising

/-- The step's window clock is REF/K. -/
def stepRefClock (r : StepRecord) : Bool := decide (r.clock.toNat = 1)

/-- The clock source the window of a step asks of the window timer. -/
def stepClock (r : StepRecord) : TimerClock := if stepRefClock r then .refK else .ms

/-- Window clock and window length of a CREEP, START or REGISTER step (3.1, R39). -/
def windowFieldsOk (r : StepRecord) : Bool :=
  decide (r.clock.toNat ≤ 1) && (!stepRefClock r || inRange 1 65536 r.divisor.toNat) &&
    decide (1 ≤ r.window.toNat)

/-- Cref and reference edge of an ERROR or REGISTER step (3.1). -/
def referenceFieldsOk (r : StepRecord) : Bool :=
  inRange 1 4000000000 r.cref.toNat && decide (r.refEdge.toNat ≤ 1)

/-- The limits of an ERROR or REGISTER step, L not above U (3.1, R39). -/
def limitFieldsOk (r : StepRecord) : Bool :=
  inRangeInt (-999999) 999999 r.lower.toInt && inRangeInt (-999999) 999999 r.upper.toInt &&
    decide (r.lower.toInt ≤ r.upper.toInt)

/-- The gate length mode for the choice it carries (R39). -/
def gateModeOk (r : StepRecord) : Bool :=
  match r.gateMode.toNat with
  | 0 => inRange 1 65535 r.gateArg.toNat
  | 1 => inRange 1 4000000000 r.gateArg.toNat
  | _ => false

/-- The gate fields of an ERROR step (3.1). The noise limit takes every value of its byte. -/
def gateFieldsOk (r : StepRecord) : Bool :=
  gateModeOk r && inRange 1 16 r.gates.toNat && inRange 0 3 r.warmUp.toNat &&
    inRange 0 8 r.extra.toNat && inRange 0 1999998 r.spread.toNat &&
    inRange 100 3600000 r.timeout.toNat && inRangeInt (-5000) 5000 r.tangent.toInt

/-- The register fields of a REGISTER step (3.1). The register settle takes every value of its word. -/
def registerFieldsOk (r : StepRecord) : Bool :=
  inRange 1 1000000 r.unit.toNat && inRange 1 12 r.digits.toNat

/-- The fields that a kind uses lie in their ranges and the conditions of R39 hold (R38). -/
def stepFieldsOk (r : StepRecord) : StepKind → Bool
  | .error => (stepTrigger r).isSome && referenceFieldsOk r && limitFieldsOk r && gateFieldsOk r
  | .creep => (stepTrigger r).isSome && windowFieldsOk r && decide (r.allowance.toNat ≤ 15)
  | .start => (stepTrigger r).isSome && windowFieldsOk r
  | .register =>
    (stepTrigger r).isSome && referenceFieldsOk r && limitFieldsOk r && windowFieldsOk r &&
      stepRefClock r && registerFieldsOk r

/-! ### Position loads (R22) -/

/-- The edge select coded in bits 2..3 of the line settings byte. -/
def edgeSelectOf (code : Nat) : Option EdgeSelect :=
  match code with
  | 0 => some .rising
  | 1 => some .falling
  | 2 => some .both
  | _ => none

/-- The line settings of a load: bit 0 polarity inverted, bit 1 filter on, bits 2..3 edge. A byte with a
higher bit set is no code of the field (assumption 7). -/
def lineSettingsOf (line : Byte) (dead : Word16) : Option LineSettings :=
  if line.toNat < 16 then
    match edgeSelectOf (line.toNat / 4) with
    | none => none
    | some e =>
      some { inverted := line.getLsbD 0, filterOn := line.getLsbD 1, edge := e, deadTime := dead.toNat }
  else none

/-- The gain word a load carries, if it carries one. -/
def loadGain (r : LoadRecord) : Option Int := if r.carried.getLsbD 0 then some r.gain.toInt else none

/-- The phase word a load carries, if it carries one. -/
def loadPhase (r : LoadRecord) : Option Int := if r.carried.getLsbD 1 then some r.phase.toInt else none

/-- A carried word lies in the signed range of its width. -/
def carriedInWidth (width : Byte) : Option Int → Bool
  | none => true
  | some w => inWidth width.toNat w

/-- The fields of a load lie in their ranges (R22, first condition, the position number apart). -/
def loadFieldsOk (r : LoadRecord) : Bool :=
  inRange 1 4000000000 r.cmut.toNat && (lineSettingsOf r.line r.deadTime).isSome &&
    inRange 4 16 r.gainWidth.toNat && inRange 1 1000000 r.gainUnit.toNat &&
    inRange 4 16 r.phaseWidth.toNat && inRange 1 1000000 r.phaseUnit.toNat &&
    decide (r.carried.toNat < 4) && carriedInWidth r.gainWidth (loadGain r) &&
    carriedInWidth r.phaseWidth (loadPhase r)

/-- The meter constants of a load. -/
def loadMeter (r : LoadRecord) : MeterConstants :=
  { cmut := r.cmut.toNat, gainWidth := r.gainWidth.toNat, gainUnit := r.gainUnit.toNat,
    phaseWidth := r.phaseWidth.toNat, phaseUnit := r.phaseUnit.toNat }

/-- An applied word that the load does not carry is kept at a value outside its new width (R22, fourth
condition). -/
def keptOutside (width : Byte) (carried : Option Int) (kept : Int) : Bool :=
  carried.isNone && !inWidth width.toNat kept

/-! ### Port profile (R132) -/

/-- The parity code. -/
def parityOf (b : Byte) : Option Parity :=
  match b.toNat with
  | 0 => some .none
  | 1 => some .even
  | 2 => some .odd
  | _ => none

/-- The checksum kind code. -/
def checksumKindOf (b : Byte) : Option ChecksumKind :=
  match b.toNat with
  | 0 => some .none
  | 1 => some .sum8
  | 2 => some .xor8
  | 3 => some .crc16
  | _ => none

/-- The ranges of the profile fields that are not codes (8.1). -/
def profileRangesOk (r : ProfileRecord) : Bool :=
  inRange 0 4095 r.divisor.toNat && inRange 7 8 r.dataBits.toNat && decide (r.stopBits.toNat = 1) &&
    inRange 11 1000 r.gap.toNat && inRange 0 62 r.codeAt.toNat && inRange 0 15 r.start.toNat

/-- The profile a record stands for, if every field lies in its range (R132). -/
def profileOf (r : ProfileRecord) : Option Profile :=
  match parityOf r.parity, checksumKindOf r.checksum with
  | some par, some kind =>
    if profileRangesOk r then
      some { divisor := r.divisor.toNat, sevenBits := decide (r.dataBits.toNat = 7), parity := par,
             gap := r.gap.toNat, codeAt := r.codeAt.toNat, checksum := kind, start := r.start.toNat }
    else none
  | _, _ => none

/-! ### Templates (R136) -/

/-- The two templates. -/
def templateIsRegister (which : Byte) : Option Bool :=
  match which.toNat with
  | 0 => some false
  | 1 => some true
  | _ => none

/-- The encodings a template may carry: ASCII_PRINTABLE for IDENTIFY, and BCD, BINARY_BE or ASCII_DECIMAL
for REGISTER_READ (8.3). -/
def encodingAllowed (register : Bool) (encoding : Byte) : Bool :=
  if register then inRange 1 3 encoding.toNat else decide (encoding.toNat = 0)

/-- A template that is written: an empty body is not judged further (R136). -/
def templateOk (register : Bool) (r : TemplateRecord) : Bool :=
  r.body.isEmpty ||
    (decide (r.body.length ≤ 62) && inRange 10 2550 r.timeout.toNat && inRange 1 16 r.length.toNat &&
      encodingAllowed register r.encoding)

/-! ### Frame rules (R148) -/

/-- The action code. -/
def actionOf (b : Byte) : Option Action :=
  match b.toNat with
  | 0 => some .relay
  | 1 => some .block
  | 2 => some .trimWrite
  | 3 => some .seal
  | _ => none

/-- The patch source code. -/
def patchSourceOf (b : Byte) : Option PatchSource :=
  match b.toNat with
  | 0 => some .gain
  | 1 => some .phase
  | 2 => some .sealNumber
  | 3 => some .position
  | _ => none

/-- A yes-or-no field of one byte: 0 no, 1 yes, and no other value. 11.7 gives these codes for the gate reports choice
and, as BIG and LITTLE, for a byte order; for the enabled, expect reply and ack test present bytes of a rule it gives
none, and the model takes the same (DEDUCED, assumption 36). -/
def boolOf (b : Byte) : Option Bool :=
  match b.toNat with
  | 0 => some false
  | 1 => some true
  | _ => none

/-- A patch field, its offset in 0..239. -/
def patchOf (r : PatchRecord) : Option Patch :=
  match patchSourceOf r.source, boolOf r.order with
  | some src, some little =>
    if r.offset.toNat ≤ 239 then some { offset := r.offset.toNat, source := src, little := little } else none
  | _, _ => none

/-- The patch fields of a record, by its patch count; the fields past the count are not read. -/
def patchesOf (r : RuleRecord) : Option (List Patch) :=
  match r.patchCount.toNat with
  | 0 => some []
  | 1 => (patchOf r.patch1).map (fun p => [p])
  | 2 =>
    match patchOf r.patch1, patchOf r.patch2 with
    | some p, some q => some [p, q]
    | _, _ => none
  | _ => none

/-- The ack test of a record; absent, its other two bytes are not read. -/
def ackOf (r : RuleRecord) : Option (Option AckTest) :=
  match boolOf r.ackPresent with
  | none => none
  | some false => some none
  | some true => some (some { offset := r.ackOffset.toNat, expected := r.ackByte })

/-- The allowed states: bit 0 LOADED to bit 3 SEALED, no higher bit (assumption 7). -/
def allowedOf (b : Byte) : Option AllowedStates :=
  if b.toNat < 16 then
    some { loaded := b.getLsbD 0, trimmed := b.getLsbD 1, verified := b.getLsbD 2, sealed := b.getLsbD 3 }
  else none

/-- The reply timeout in ms: 1..255 units of 10 ms (9.1, 11.7). -/
def ruleTimeoutOf (b : Byte) : Option Nat := if b.toNat = 0 then none else some (b.toNat * 10)

/-- The rule a record stands for, if every field lies in its range (R148, first condition). -/
def ruleOf (r : RuleRecord) : Option FrameRule := do
  let enabled ← boolOf r.enabled
  let action ← actionOf r.action
  let allowed ← allowedOf r.allowed
  let expect ← boolOf r.expectReply
  let timeout ← ruleTimeoutOf r.timeout
  let patches ← patchesOf r
  let ack ← ackOf r
  return { enabled := enabled, value := r.value, mask := r.mask, action := action, allowed := allowed,
           expectReply := expect, timeout := timeout, patches := patches, ack := ack }

/-- The bytes a patch source writes (9.1). -/
def patchSize : PatchSource → Nat
  | .gain => 2
  | .phase => 2
  | .sealNumber => 4
  | .position => 1

/-- The actions whose rules may carry a patch source (9.1; R148, second condition). -/
def sourceAllowed : Action → PatchSource → Bool
  | _, .position => true
  | .trimWrite, .gain => true
  | .trimWrite, .phase => true
  | .seal, .sealNumber => true
  | _, _ => false

/-- Two patch fields cover a common byte or carry the same source (R148, third condition). -/
def patchesClash : List Patch → Bool
  | [p, q] =>
    decide (p.source = q.source) ||
      (decide (p.offset < q.offset + patchSize q.source) && decide (q.offset < p.offset + patchSize p.source))
  | _ => false

/-- Some patch field of the rule has this source. -/
def hasPatch (src : PatchSource) (r : FrameRule) : Bool := r.patches.any (fun p => decide (p.source = src))

/-- The conditions of R148 beyond the ranges of the fields. -/
def ruleOk (r : FrameRule) : Bool :=
  r.patches.all (fun p => sourceAllowed r.action p.source) && !patchesClash r.patches &&
    (decide (r.action ≠ .trimWrite) || hasPatch .gain r) &&
    ((decide (r.action ≠ .trimWrite) && decide (r.action ≠ .seal)) || (r.expectReply && r.ack.isSome))

end Sys2Proof.Machine
end

