-- ==== Sys2Proof/Machine/Arith.lean ====
section
/-! DEFINITION. The Arithmetic Unit: exact integers, one rounding on the final quotient, and the clamps
(chapter 5), and the correction words (chapter 7). -/

namespace Sys2Proof.Machine

/-- A quotient by a positive divisor rounded to the nearest integer, halves away from zero (R82). -/
def roundDivPos (a : Int) (b : Nat) : Int :=
  if 0 ≤ a then (2 * a + b) / (2 * b) else -((2 * (-a) + b) / (2 * b))

/-- A quotient by a divisor of either sign, rounded as R82 gives on the exact quotient (R121). -/
def roundDiv (a b : Int) : Int := if 0 ≤ b then roundDivPos a b.natAbs else roundDivPos (-a) b.natAbs

/-- The smallest integer not below the exact quotient (R82). -/
def ceilDiv (a b : Nat) : Nat := (a + b - 1) / b

/-- The bound of every reported error (R85). -/
def errorBound : Int := 999999

/-- A rounded error held within its bounds, and whether it had to be (R85, R93). -/
def clampError (e : Int) : Int × Bool :=
  if errorBound < e then (errorBound, true)
  else if e < -errorBound then (-errorBound, true)
  else (e, false)

/-- The gate error of R84 with the clamp of R85. -/
def gateError (n cref m cmut : Nat) : Int × Bool :=
  clampError (roundDivPos (((n * cref * 1000 : Nat) - (m * cmut : Nat) : Int) * 1000000) (m * cmut))

/-- The auto gate length and whether it was clamped (R59, R86). -/
def autoGateLength (mMin cmut cref : Nat) : Nat × Bool :=
  if 65535 < ceilDiv (mMin * cmut) (cref * 1000) then (65535, true)
  else (max 1 (ceilDiv (mMin * cmut) (cref * 1000)), false)

/-- The gate length a gate latches: FIXED n, or the auto gate length (R59). -/
def gateLength (r : StepRecord) (cmut : Nat) : Nat × Bool :=
  if r.gateMode.toNat = 1 then autoGateLength r.gateArg.toNat cmut r.cref.toNat
  else (r.gateArg.toNat, false)

/-- The mean and the spread of the accepted gate errors, absent when there is none (R87, R88). -/
def stepStatistics (sum : Int) (bounds : Option (Int × Int)) (k : Nat) : Option (Int × Nat) :=
  match bounds with
  | none => none
  | some b => if k = 0 then none else some (roundDivPos sum k, (b.2 - b.1).toNat)

/-- The verdict of the step statistics (R89). -/
def errorVerdict (r : StepRecord) (mean : Int) (spread : Nat) : Verdict :=
  if r.spread.toNat < spread then .unstable
  else if inRangeInt r.lower.toInt r.upper.toInt mean then .pass
  else .fail

/-- The register difference (R91). -/
def registerDifference (digits r0 r1 : Nat) : Nat :=
  (((r1 : Int) - (r0 : Int)) % ((10 ^ digits : Nat) : Int)).toNat

/-- The register error of R92 with the clamp of R93. -/
def registerError (delta unit cref window divisor : Nat) : Int × Bool :=
  clampError
    (roundDivPos (((delta * unit * cref : Nat) : Int) - ((window * divisor * 1000000 : Nat) : Int))
      (window * divisor))

/-- The register error of a position's two readings under a step (R91, R92). -/
def registerErrorOf (r : StepRecord) (r0 r1 : Nat) : Int × Bool :=
  registerError (registerDifference r.digits.toNat r0 r1) r.unit.toNat r.cref.toNat r.window.toNat
    r.divisor.toNat

/-- The verdict of a register error (R93). -/
def registerVerdict (r : StepRecord) (e : Int) : Verdict :=
  if inRangeInt r.lower.toInt r.upper.toInt e then .pass else .fail

/-- A first-pulse time: a timestamp less the millisecond count at the window start, modulo 2^32 (R95). -/
def firstPulseTime (now start : Word32) : Nat := (now - start).toNat

/-- The gain target (R120). -/
def gainTarget (applied eA : Int) (unit : Nat) : Int := applied + roundDivPos (-eA * 100) unit

/-- The phase target (R121). -/
def phaseTarget (applied eA eB tangent : Int) (unit : Nat) : Int :=
  applied + roundDiv (-(eB - eA) * 100000) (tangent * unit)

/-- The lowest word of a width (2.1). -/
def lowestWord (width : Nat) : Int := -(2 ^ (width - 1))

/-- The highest word of a width (2.1). -/
def highestWord (width : Nat) : Int := 2 ^ (width - 1) - 1

/-- A target clamped to the nearer bound of its range, and whether it was (R122). -/
def clampWord (width : Nat) (w : Int) : Int × Bool :=
  if highestWord width < w then (highestWord width, true)
  else if w < lowestWord width then (lowestWord width, true)
  else (w, false)

end Sys2Proof.Machine
end

