-- ==== Sys2Proof/Machine/Flags.lean ====
section
/-! DEFINITION. The report marks, the SEAL_DONE list and the tallies of the Bench Link Interface (R181,
R182, R184, R189), and the last step event (R54). -/

namespace Sys2Proof.Machine

/-- A tally raised by 1, holding at 65,535 (R181). -/
def tallyUp (n : Nat) : Nat := min (n + 1) Config.tallyLimit

/-- The gate reject tally raised by 1, holding at 255 (R6). -/
def rejectUp (n : Nat) : Nat := min (n + 1) 255

/-- The REF_LOST module mark set (R11). -/
def markRefLost (s : State) : State := { s with bli := { s.bli with markRefLost := true } }

/-- The STORE_EVENT module mark set (R174, R176, R177). -/
def markStoreEvent (s : State) : State := { s with bli := { s.bli with markStore := true } }

/-- A last step event recorded, and the STEP_STATE module mark set (R54). -/
def recordStepEvent (e : StepEvent) (s : State) : State :=
  { s with psc := { s.psc with lastEvent := some e }, bli := { s.bli with markStepState := true } }

/-- The STEP_VERDICT mark of a position set with a step number (R189). -/
def markVerdict (p : Pos) (n : Fin 32) (s : State) : State :=
  s.setMarks p { s.marks p with verdict := some n }

/-- The IDENTIFY_DONE mark of a position set (R146). -/
def markIdentify (p : Pos) (s : State) : State := s.setMarks p { s.marks p with identify := true }

/-- The GATE_RESULT mark of a position set when gate reports are on (R75). -/
def markGateResult (p : Pos) (s : State) : State :=
  if s.pt.gateReports then s.setMarks p { s.marks p with gate := true } else s

/-- A SEAL_DONE entry joins the list, or is dropped and counted (R189). -/
def addSealDone (e : SealDone) (s : State) : State :=
  if s.bli.sealDone.length < Config.sealDonePlaces then
    { s with bli := { s.bli with sealDone := s.bli.sealDone ++ [e] } }
  else { s with bli := { s.bli with sealDrops := tallyUp s.bli.sealDrops } }

end Sys2Proof.Machine
end

