-- ==== Sys2Proof/Machine/Store.lean ====
section
/-! DEFINITION. The Seal Record Store: slot states, free count, reservations, the flash acts of a job, and
the job queue (10.1, 10.2, 10.4). -/

namespace Sys2Proof.Machine

/-- The classification of a slot by its contents, with the seal number it holds (R165). -/
def SlotContents.classify (c : SlotContents) : SlotState × Option Nat :=
  match c.note with
  | some n => (.bad, n)
  | none =>
    if c = .erased then (.erased, none)
    else
      match c.header with
      | .good h =>
        if !c.valid then (.incomplete, some h.number)
        else
          match c.body with
          | .good _ => (.valid, some h.number)
          | _ => (.bad, some h.number)
      | _ => (.bad, none)

/-- The state of a slot in the RAM view: RESERVED where a reservation stands, and else what its contents
say (R165; assumption 8). -/
def Srs.slotState (r : Srs) (n : Nat) : SlotState :=
  if (r.reservation n).isSome then .reserved else (r.slot n).classify.1

/-- The sector of a slot (10.1). -/
def sectorOf (slot : Nat) : Nat := slot / Config.sectorSlots

/-- The slots of a sector. -/
def sectorSlotsOf (sector : Nat) : List Nat :=
  (List.range Config.sectorSlots).map (fun i => sector * Config.sectorSlots + i)

/-- The running job and the queued ones, oldest first. -/
def Srs.jobs (r : Srs) : List Job := r.running.toList ++ r.queue

/-- An erase of this sector is queued or running (R166). -/
def Srs.erasing (r : Srs) (sector : Nat) : Bool := r.jobs.any (fun j => decide (j = .erase sector))

/-- The slot passes both tests of the free count (R166). -/
def Srs.isFree (r : Srs) (n : Nat) : Bool :=
  decide (r.slotState n = .erased) && !r.erasing (sectorOf n)

/-- The free count: the run of free slots counted forward from the pointer, wrapping (R166). -/
def Srs.freeCount (r : Srs) : Nat :=
  ((List.range Config.storeSlots).takeWhile
    (fun i => r.isFree ((r.pointer + i) % Config.storeSlots))).length

/-- A reservation of the slot at the pointer, which advances by one (R166). -/
def Srs.reserve (r : Srs) (number : Nat) (p : Pos) : Srs :=
  { r.setReservation r.pointer (some { number := number, pos := p }) with
    pointer := (r.pointer + 1) % Config.storeSlots }

/-- The highest seal number present after a header or failure note carrying a number was programmed: only
a higher number moves it (R165). -/
def Srs.noteNumber (r : Srs) (number slot : Nat) : Srs :=
  match r.highest with
  | none => { r with highest := some (number, sectorOf slot) }
  | some h => if h.1 < number then { r with highest := some (number, sectorOf slot) } else r

/-- The number of live seal flows, each owing one body job (R168). -/
def Srs.liveFlows (r : Srs) : Nat := allPos.countP (fun p => (atPos r.flows p).isSome)

/-- The record of a slot is VALID, uncollected and numbered `number` or below (R174). -/
def Srs.collectable (r : Srs) (number n : Nat) : Bool :=
  decide (r.slotState n = .valid) && !(r.slot n).collected &&
    match (r.slot n).classify.2 with
    | some k => decide (k ≤ number)
    | none => false

/-- The records a collect job marks, in ascending slot order (R174). -/
def Srs.collectSlots (r : Srs) (number : Nat) : List Nat :=
  (r.contents.map Prod.fst).filter (fun n => r.collectable number n)

/-! ### Flash acts -/

/-- The slot an act works on. -/
def FlashAct.slot : FlashAct → Nat
  | .header s _ => s
  | .body s _ => s
  | .validMark s => s
  | .collectedMark s => s
  | .eraseSlot s => s

/-- The contents an act leaves when it is done (10.1). -/
def FlashAct.done (c : SlotContents) : FlashAct → SlotContents
  | .header _ h => { c with header := .good h }
  | .body _ b => { c with body := .good b }
  | .validMark _ => { c with valid := true }
  | .collectedMark _ => { c with collected := true }
  | .eraseSlot _ => .erased

/-- The contents an act leaves when power was lost part-way: a header or body whose check fails, a mark
still erased, an erased slot that reads as spoiled (R177; assumption 9). -/
def FlashAct.torn (c : SlotContents) : FlashAct → SlotContents
  | .header _ _ => { c with header := .spoiled }
  | .body _ _ => { c with body := .spoiled }
  | .validMark _ => c
  | .collectedMark _ => c
  | .eraseSlot _ => { SlotContents.erased with header := .spoiled }

/-- The acts of a job in the order it makes them (10.1, R171, R172, R174). An erase takes its sector as one; that it is
here sixteen acts, slot by slot in ascending order, shows only where power is lost during it, and what such a loss
leaves in the sector is the model's choice (DESIGN CHOICE, assumption 9). -/
def jobActs (r : Srs) : Job → List FlashAct
  | .header slot h => [.header slot h]
  | .body slot _ b => [.body slot b, .validMark slot]
  | .fullRecord slot h b => [.header slot h, .body slot b, .validMark slot]
  | .collect number => (r.collectSlots number).map .collectedMark
  | .erase sector => (sectorSlotsOf sector).map .eraseSlot

/-- The store after some acts were done. -/
def runActs (acts : List FlashAct) (r : Srs) : Srs :=
  acts.foldl (fun r a => r.setSlot a.slot (a.done (r.slot a.slot))) r

/-- The store after power was lost during a job (R177): the acts before the cut are done, the one it met is torn or not
begun, and the rest are not begun. So a cut erase leaves the lower slots of its sector erased and the higher ones as
they were (DESIGN CHOICE, assumption 9). -/
def cutJob (cut : FlashCut) (j : Job) (r : Srs) : Srs :=
  match (jobActs r j)[cut.done]? with
  | none => runActs (jobActs r j) r
  | some a =>
    if cut.torn then
      (runActs ((jobActs r j).take cut.done) r).setSlot a.slot
        (a.torn ((runActs ((jobActs r j).take cut.done) r).slot a.slot))
    else runActs ((jobActs r j).take cut.done) r

/-- A failure note programmed on a slot (R165). -/
def writeNote (number : Option Nat) (r : Srs) (slot : Nat) : Srs :=
  r.setSlot slot { r.slot slot with note := some number }

/-- The store after a job failed: the failure note of its slot carries the job's seal number, those of an
erased sector carry none (R165, R176). A collect job does not fail as a whole. -/
def failJob (j : Job) (r : Srs) : Srs :=
  match j with
  | .header slot h => writeNote (some h.number) r slot
  | .body slot h _ => writeNote (some h.number) r slot
  | .fullRecord slot h _ => writeNote (some h.number) r slot
  | .collect _ => r
  | .erase sector => (sectorSlotsOf sector).foldl (writeNote none) r

/-- The flash contents at the end of a job. -/
def flashResult (ok : Bool) (j : Job) (r : Srs) : Srs := if ok then runActs (jobActs r j) r else failJob j r

/-- The marks a collect job programs: every one it set out to, but those that failed (R174). -/
def collectMarks (failed : List Nat) (number : Nat) (r : Srs) : List Nat :=
  (r.collectSlots number).filter (fun n => !failed.contains n)

/-! ### The job queue -/

/-- How a job starts (R171): as it stands; or, for a body or full-record job that finds its slot not
RESERVED, as a full-record job on a slot newly reserved; or not at all, when no slot is free. -/
def jobAtStart (r : Srs) : Job → Option (Srs × Job)
  | .body slot h b =>
    if r.slotState slot = .reserved then some (r, .body slot h b)
    else if r.freeCount = 0 then none
    else some (r.reserve h.number h.pos, .fullRecord r.pointer h b)
  | .fullRecord slot h b =>
    if r.slotState slot = .reserved then some (r, .fullRecord slot h b)
    else if r.freeCount = 0 then none
    else some (r.reserve h.number h.pos, .fullRecord r.pointer h b)
  | j => some (r, j)

/-- The SEAL_DONE entry of a job whose record is lost (R171). -/
def lostEntry : Job → Option SealDone
  | .body _ h b => some { pos := h.pos, number := h.number, slot := none, kind := b.kind }
  | .fullRecord _ h b => some { pos := h.pos, number := h.number, slot := none, kind := b.kind }
  | _ => none

/-- A SEAL_DONE entry joins the list where there is one. -/
def addSealDone? : Option SealDone → State → State
  | none, s => s
  | some e, s => addSealDone e s

/-- The head of the queue starts when no job runs; a job that ends without a flash operation gives way to
the next (R171, R172). -/
def startJobs : List Job → State → State
  | [], s => { s with srs := { s.srs with queue := [], running := none } }
  | j :: rest, s =>
    match jobAtStart { s.srs with queue := j :: rest, running := none } j with
    | some (r, j') => { s with srs := { r with queue := rest, running := some j' } }
    | none =>
      startJobs rest (addSealDone? (lostEntry j) { s with srs := { s.srs with queue := rest, running := none } })

/-- The job at the head of the queue starts when none is running; during the start-up scan there is none
to start (R172, R177). -/
def tryJobs (s : State) : State :=
  if s.srs.phase = .over ∧ s.srs.running = none then startJobs s.srs.queue s else s

/-- A job joins the tail of the queue, and starts at once when none is queued or running (R172). -/
def queueJob (j : Job) (s : State) : State :=
  tryJobs { s with srs := { s.srs with queue := s.srs.queue ++ [j] } }

/-- The running job has ended, and the next one starts (R172). -/
def endJob (s : State) : State := tryJobs { s with srs := { s.srs with running := none } }

end Sys2Proof.Machine
end

