-- ==== Sys2Proof/Machine/Layout.lean ====
section
/-! DEFINITION. The codes of R192 and the gathered payload layouts of 11.7. -/

namespace Sys2Proof.Machine

/-! ### Codes -/

/-- Status codes (R192). -/
def Status.code : Status → Byte
  | .ok => 0x00
  | .busy => 0x01
  | .badArg => 0x02
  | .badState => 0x03
  | .unknownKind => 0x04
  | .noRule => 0x05
  | .wrongState => 0x06
  | .blocked => 0x07
  | .shortFrame => 0x08
  | .noCorrection => 0x09
  | .trimLimit => 0x0A
  | .storeFull => 0x0B
  | .notCollected => 0x0C
  | .newestSector => 0x0D

/-- Transaction outcomes (R192). -/
def PortOutcome.code : PortOutcome → Byte
  | .replied => 0
  | .sent => 1
  | .acked => 2
  | .nacked => 3
  | .noReply => 4
  | .aborted => 5

/-- Verdicts (R192). -/
def Verdict.code : Verdict → Byte
  | .pass => 0
  | .fail => 1
  | .unstable => 2
  | .noisy => 3
  | .noPulse => 4
  | .overrange => 5
  | .refLost => 6
  | .noReply => 7
  | .badReading => 8
  | .aborted => 9

/-- Position states (R192). -/
def PosState.code : PosState → Byte
  | .empty => 0
  | .loaded => 1
  | .trimmed => 2
  | .verified => 3
  | .sealing => 4
  | .sealed => 5

/-- Slot states (R192). -/
def SlotState.code : SlotState → Byte
  | .erased => 0
  | .reserved => 1
  | .valid => 2
  | .incomplete => 3
  | .bad => 4

/-- Module step states (11.7). -/
def StepState.code : StepState → Byte
  | .idle => 0
  | .readBefore => 1
  | .armed => 2
  | .settling => 3
  | .running => 4
  | .settleAfter => 5
  | .readAfter => 6
  | .complete => 7

/-- Last step events (11.7). -/
def stepEventCode : Option StepEvent → Byte
  | none => 0
  | some .armed => 1
  | some .running => 2
  | some .windowEnd => 3
  | some .complete => 4
  | some .aborted => 5

/-- Write in flight (11.7). -/
def WriteInFlight.code : WriteInFlight → Byte
  | .none => 0
  | .trim => 1
  | .seal => 2

/-- Last identify outcomes (11.7). -/
def identifyCode : Option IdentifyOutcome → Byte
  | none => 0
  | some .serial => 1
  | some .noReply => 2
  | some .badReading => 3
  | some .aborted => 4

/-- Gate outcomes: the spec states no codes, so each is a free value of its place in the order of 4.8
(assumption 6). -/
def GateOutcome.code : GateOutcome → Byte
  | .discarded => Config.gateOutcomeCode 0
  | .overrange => Config.gateOutcomeCode 1
  | .zeroRef => Config.gateOutcomeCode 2
  | .noisy => Config.gateOutcomeCode 3
  | .accepted => Config.gateOutcomeCode 4

/-- Edge selects (11.7). -/
def EdgeSelect.code : EdgeSelect → Nat
  | .rising => 0
  | .falling => 1
  | .both => 2

/-- Checksum results (11.7). -/
def ChecksumResult.code : ChecksumResult → Nat
  | .notChecked => 0
  | .ok => 1
  | .bad => 2

/-- Parities (11.7). -/
def Parity.code : Parity → Byte
  | .none => 0
  | .even => 1
  | .odd => 2

/-- Checksum kinds (11.7). -/
def ChecksumKind.code : ChecksumKind → Byte
  | .none => 0
  | .sum8 => 1
  | .xor8 => 2
  | .crc16 => 3

/-- Actions (11.7). -/
def Action.code : Action → Byte
  | .relay => 0
  | .block => 1
  | .trimWrite => 2
  | .seal => 3

/-- Patch sources (11.7). -/
def PatchSource.code : PatchSource → Byte
  | .gain => 0
  | .phase => 1
  | .sealNumber => 2
  | .position => 3

/-- A flag or a presence in a byte of its own: 1 where it holds (assumption 36). -/
def boolByte (b : Bool) : Byte := if b then 1 else 0

/-- A number in one byte. -/
def byteOf (n : Nat) : Byte := BitVec.ofNat 8 n

/-- A list of bytes brought to a fixed length with zeros after it. -/
def padTo (n : Nat) (l : List Byte) : List Byte := (l ++ List.replicate (n - l.length) 0).take n

/-- The number of a position in one byte. -/
def posByte (p : Pos) : Byte := byteOf (posNumber p)

/-- A run id that may be absent, carried as 0 then (11.7). -/
def runIdBytes (r : Option Word32) : List Byte := beBytes 4 (r.getD 0).toNat

/-- A step with its run id; an absent one is slot FFh with run id 0 (11.7). -/
def stepRefBytes : Option StepRef → List Byte
  | none => 0xFF :: beBytes 4 0
  | some r => byteOf r.slot.val :: beBytes 4 r.run.toNat

/-! ### Position record -/

/-- The line settings byte: bit 0 polarity inverted, bit 1 filter on, bits 2..3 edge. -/
def lineByte (l : LineSettings) : Byte :=
  byteOf (flagBit l.inverted 0 + flagBit l.filterOn 1 + 4 * l.edge.code)

/-- Serial length and characters, in 17 bytes. -/
def serialBytes (serial : Option (List Byte)) : List Byte :=
  byteOf (serial.getD []).length :: padTo 16 (serial.getD [])

/-- The verification pairs, in 41 bytes. -/
def verificationBytes (pairs : List (Nat × Int)) : List Byte :=
  byteOf pairs.length :: padTo 40 ((pairs.map (fun e => byteOf e.1 :: intBytes 4 e.2)).flatten)

/-- The latest gate result, in 14 bytes; zeros when absent. -/
def gateResultBytes : Option GateResult → List Byte
  | none => List.replicate 14 0
  | some g =>
    [byteOf g.index, g.outcome.code] ++ intBytes 4 (g.error.getD 0) ++ beBytes 2 g.n ++ beBytes 4 g.m ++
      [byteOf g.tally, flagByte [g.saturated, g.nClamped, g.overrange, g.error.isSome]]

/-- The meter constants, bytes 12..19 of the position record after Cmut; zeros when absent. -/
def widthBytes : Option MeterConstants → List Byte
  | none => List.replicate 8 0
  | some m =>
    byteOf m.gainWidth :: beBytes 3 m.gainUnit ++ byteOf m.phaseWidth :: beBytes 3 m.phaseUnit

/-- Cmut, 0 when absent. -/
def recordCmut (r : PositionRecord) : Nat :=
  match r.meter with
  | none => 0
  | some m => m.cmut

/-- The pending gain word, 0 when absent. -/
def pendingGain (r : PositionRecord) : Int :=
  match r.correction with
  | none => 0
  | some c => c.gain

/-- The pending phase word, if one is held. -/
def pendingPhase (r : PositionRecord) : Option Int :=
  match r.correction with
  | none => none
  | some c => c.phase

/-- The presence and flags byte of the position record. -/
def positionFlags (r : PositionRecord) (running : Bool) : Byte :=
  flagByte [r.included, r.outOfTrim, running, r.correction.isSome, (pendingPhase r).isSome,
    r.serial.isSome, r.runId.isSome, r.latestGate.isSome]

/-- The position record payload of POSITION_READ (11.7). -/
def positionBytes (s : State) (p : Pos) : List Byte :=
  let r := s.pos p
  [posByte p, r.state.code, positionFlags r (s.isRunning p), r.inFlight.code, byteOf r.trimRounds] ++
    beBytes 4 (recordCmut r) ++ [lineByte r.line] ++ beBytes 2 r.line.deadTime ++ widthBytes r.meter ++
    intBytes 2 r.gain ++ intBytes 2 r.phase ++ intBytes 2 (pendingGain r) ++
    intBytes 2 ((pendingPhase r).getD 0) ++ runIdBytes r.runId ++ serialBytes r.serial ++
    verificationBytes r.verification ++ gateResultBytes r.latestGate ++ [identifyCode (s.identified p)]

/-! ### Result entry -/

/-- The step kind an entry's fields belong to (R30). -/
def EntryFields.kind : EntryFields → StepKind
  | .error _ _ _ _ => .error
  | .creep _ => .creep
  | .start _ => .start
  | .register _ _ _ => .register

/-- Step kinds (11.7). -/
def StepKind.code : StepKind → Byte
  | .error => 0
  | .creep => 1
  | .start => 2
  | .register => 3

/-- Presence of the first, second and third kind fields (11.7). -/
def entryPresence : EntryFields → List Bool
  | .error _ _ n stats => [n.isSome, stats.isSome, false]
  | .creep _ => [false, false, false]
  | .start t => [t.isSome, false, false]
  | .register r0 r1 e => [r0.isSome, r1.isSome, e.isSome]

/-- The mean of an ERROR entry, 0 when absent. -/
def meanOf : Option (Int × Nat) → Int
  | none => 0
  | some s => s.1

/-- The spread of an ERROR entry, 0 when absent. -/
def spreadOf : Option (Int × Nat) → Nat
  | none => 0
  | some s => s.2

/-- The kind fields of an entry, from byte 15 (11.7). -/
def entryFieldBytes : EntryFields → List Byte
  | .error k a n stats =>
    [byteOf k, byteOf a] ++ beBytes 2 (n.getD 0) ++ intBytes 4 (meanOf stats) ++ beBytes 4 (spreadOf stats)
  | .creep c => [byteOf c]
  | .start t => beBytes 4 (t.getD 0)
  | .register r0 r1 e => beBytes 5 (r0.getD 0) ++ beBytes 5 (r1.getD 0) ++ intBytes 4 (e.getD 0)

/-- Bytes 7 onward of a result entry; an absent one is carried as zeros up to byte 14 (assumption 6). -/
def entryBytes : Option Entry → List Byte
  | none => List.replicate 8 0
  | some e =>
    [1, e.verdict.code, e.fields.kind.code, flagByte ([e.saturated, e.nClamped] ++ entryPresence e.fields)] ++
      beBytes 4 e.runId.toNat ++ entryFieldBytes e.fields

/-- The result entry payload of RESULT_READ and STEP_VERDICT (11.7). -/
def resultBytes (s : State) (p : Pos) (n : Fin 32) : List Byte :=
  let r := s.pos p
  [posByte p, byteOf n.val, r.state.code] ++ runIdBytes r.runId ++ entryBytes r.results[n.val]

/-! ### Step record, profile, template, rule -/

/-- Bytes 1..52 of a step record as it was written (R38, 11.7). -/
def stepBytes (r : StepRecord) : List Byte :=
  [r.kind, r.trigger] ++ beBytes 2 r.delay.toNat ++ beBytes 4 r.cref.toNat ++ [r.refEdge, r.gateMode] ++
    beBytes 4 r.gateArg.toNat ++ [r.gates, r.warmUp, r.extra, r.noise] ++ beBytes 4 r.lower.toNat ++
    beBytes 4 r.upper.toNat ++ beBytes 4 r.spread.toNat ++ beBytes 4 r.timeout.toNat ++
    beBytes 2 r.tangent.toNat ++ [r.clock] ++ beBytes 3 r.divisor.toNat ++ beBytes 4 r.window.toNat ++
    [r.allowance] ++ beBytes 4 r.unit.toNat ++ [r.digits] ++ beBytes 2 r.settle.toNat

/-- The step record payload of a slot; kind FFh and zeros for an EMPTY one (11.7; assumption 6). -/
def planBytes (s : State) (n : Fin 32) : List Byte :=
  byteOf n.val ::
    match s.psc.plan[n.val] with
    | none => 0xFF :: List.replicate 51 0
    | some r => stepBytes r

/-- The profile payload (11.7). -/
def profileBytes (f : Profile) : List Byte :=
  beBytes 2 f.divisor ++ [if f.sevenBits then 7 else 8, f.parity.code, 1] ++ beBytes 2 f.gap ++
    [byteOf f.codeAt, f.checksum.code, byteOf f.start]

/-- The template payload after the template byte (11.7). -/
def templateBytes (t : TemplateRecord) : List Byte :=
  beBytes 2 t.timeout.toNat ++ [t.offset, t.length, t.encoding, byteOf t.body.length] ++ t.body

/-- One patch field of a rule; zeros when absent (11.7). -/
def patchBytes : Option Patch → List Byte
  | none => [0, 0, 0]
  | some p => [byteOf p.offset, p.source.code, boolByte p.little]

/-- The ack test of a rule; zeros when absent (11.7). -/
def ackBytes : Option AckTest → List Byte
  | none => [0, 0, 0]
  | some a => [1, byteOf a.offset, a.expected]

/-- The rule record payload (11.7). -/
def ruleBytes (index : Fin 16) (f : FrameRule) : List Byte :=
  [byteOf index.val, boolByte f.enabled] ++ beBytes 2 f.value.toNat ++ beBytes 2 f.mask.toNat ++
    [f.action.code, flagByte [f.allowed.loaded, f.allowed.trimmed, f.allowed.verified, f.allowed.sealed],
     boolByte f.expectReply, byteOf (f.timeout / 10), byteOf f.patches.length] ++
    patchBytes f.patches[0]? ++ patchBytes f.patches[1]? ++ ackBytes f.ack

/-! ### Store -/

/-- A store event in 10 bytes (11.7). -/
def storeEventBytes : Option StoreEvent → List Byte
  | none => List.replicate 10 0
  | some .scanDone => 1 :: List.replicate 9 0
  | some (.collectDone n marked failed) => 2 :: beBytes 4 n ++ beBytes 2 marked ++ beBytes 2 failed ++ [0]
  | some (.eraseDone sector) => 3 :: List.replicate 8 0 ++ [byteOf sector]
  | some (.eraseFailed sector) => 4 :: List.replicate 8 0 ++ [byteOf sector]

/-- Void reasons (11.7). -/
def voidCode : RecordKind → Byte
  | .sealed => 0
  | .void .nack => 1
  | .void .noReply => 2
  | .void .aborted => 3

/-- Record kinds (11.7). -/
def RecordKind.code : RecordKind → Byte
  | .sealed => 0
  | .void _ => 1

/-- Bytes 10 onward of a VALID record (11.7). -/
def sealBodyBytes (b : SealBody) : List Byte :=
  [b.kind.code] ++ runIdBytes b.runId ++ serialBytes b.serial ++ [byteOf b.trimRounds] ++
    intBytes 2 b.gain ++ intBytes 2 b.phase ++ verificationBytes b.verification ++ [voidCode b.kind]

/-- Bytes 3..9 of a store record: flags, seal number, position, module address. -/
def storeHeadBytes (header collected : Bool) (number : Option Nat) (p : Nat) (addr : BitVec 4) : List Byte :=
  flagByte [header, collected, number.isSome] :: beBytes 4 (number.getD 0) ++ [byteOf p, byteOf addr.toNat]

/-- The header of a slot is programmed. -/
def headerProgrammed (c : SlotContents) : Bool :=
  match c.header with
  | .good _ => true
  | _ => false

/-- The store record payload of a slot: the fields its state carries, and zeros (R179, 11.7). A RESERVED
slot carries the kind PENDING, as its header does (assumption 6). Header programmed is 1 for VALID and INCOMPLETE, and
0 for every BAD slot, which R179 does not give that field; the zeros of what a state does not carry are the model's
choice too (assumption 39). -/
def storeRecordBytes (s : State) (n : Nat) : List Byte :=
  let c := s.srs.slot n
  beBytes 2 n ++ [(s.srs.slotState n).code] ++
    match s.srs.slotState n with
    | .erased => List.replicate 76 0
    | .reserved =>
      match s.srs.reservation n with
      | none => List.replicate 76 0
      | some r =>
        storeHeadBytes (headerProgrammed c) false (some r.number) (posNumber r.pos) s.strap ++
          2 :: List.replicate 68 0
    | .valid =>
      match c.header, c.body with
      | .good h, .good b => storeHeadBytes true c.collected (some h.number) (posNumber h.pos) h.address ++ sealBodyBytes b
      | _, _ => List.replicate 76 0
    | .incomplete =>
      match c.header with
      | .good h => storeHeadBytes true false (some h.number) (posNumber h.pos) h.address ++ 2 :: List.replicate 68 0
      | _ => List.replicate 76 0
    | .bad => storeHeadBytes false false c.classify.2 0 0 ++ List.replicate 69 0

/-- The free count a payload carries: absent during the scan (R178). -/
def freeCountField (s : State) : Nat := if s.scanning then 0 else s.srs.freeCount

/-- The next seal number a payload carries: absent during the scan (R178). -/
def nextSealField (s : State) : Nat := if s.scanning then 0 else s.srs.nextSeal

/-- The number of slots in a state (R179). -/
def Srs.slotCount (r : Srs) (x : SlotState) : Nat :=
  (List.range Config.storeSlots).countP (fun n => decide (r.slotState n = x))

/-- The kind of the running job (11.7). -/
def runningJobCode : Option Job → Byte
  | none => 0
  | some (.header _ _) => 1
  | some (.body _ _ _) => 2
  | some (.fullRecord _ _ _) => 3
  | some (.collect _) => 4
  | some (.erase _) => 5

/-- Highest seal number present: presence, number and sector (11.7). -/
def highestBytes : Option (Nat × Nat) → List Byte
  | none => List.replicate 6 0
  | some h => 1 :: beBytes 4 h.1 ++ [byteOf h.2]

/-- The counts of slots in each state (11.7); zeros during the scan, when no slot is classified. -/
def slotCountBytes (s : State) : List Byte :=
  if s.scanning then List.replicate 10 0
  else
    beBytes 2 (s.srs.slotCount .erased) ++ beBytes 2 (s.srs.slotCount .reserved) ++
      beBytes 2 (s.srs.slotCount .valid) ++ beBytes 2 (s.srs.slotCount .incomplete) ++
      beBytes 2 (s.srs.slotCount .bad)

/-- The answer payload of STORE_STATUS after the status (R178, R179, 11.7). -/
def storeStatusBytes (s : State) : List Byte :=
  [boolByte s.scanning] ++ beBytes 2 (if s.scanning then 0 else s.srs.pointer) ++
    beBytes 2 (freeCountField s) ++ beBytes 5 (nextSealField s) ++
    highestBytes (if s.scanning then none else s.srs.highest) ++ slotCountBytes s ++
    [byteOf s.srs.queue.length, runningJobCode s.srs.running] ++ storeEventBytes s.srs.lastEvent

/-! ### Settings and status -/

/-- The settings payload (11.7). -/
def settingsBytes (s : State) : List Byte := [byteOf s.pt.trimLimit, boolByte s.pt.gateReports]

/-- The answer payload of STATUS_READ after the status (R188, 11.7). -/
def statusBytes (s : State) : List Byte :=
  [byteOf s.strap.toNat, s.psc.stepState.code] ++ stepRefBytes s.psc.active ++ stepRefBytes s.psc.queued ++
    stepRefBytes s.psc.last ++ [stepEventCode s.psc.lastEvent, byteOf s.psc.running.length,
    byteOf s.bli.answers.length, byteOf s.bli.owed, byteOf s.bli.held.length, byteOf s.bli.reports.length] ++
    beBytes 2 s.bli.upErrors ++ beBytes 2 s.bli.downErrors ++ beBytes 2 s.bli.forwardDrops ++
    beBytes 2 s.bli.commandDrops ++ beBytes 2 s.bli.sealDrops ++ [boolByte s.scanning] ++
    beBytes 2 (freeCountField s) ++ beBytes 5 (nextSealField s) ++ settingsBytes s

/-! ### Reports -/

/-- The slot and run id a REF_LOST or STEP_STATE report carries: the active step, or the last step. -/
def reportStep (s : State) : Option StepRef :=
  match s.psc.active with
  | some r => some r
  | none => s.psc.last

/-- REF_LOST report payload (11.7). -/
def refLostReport (s : State) : List Byte := [1, s.psc.stepState.code] ++ stepRefBytes (reportStep s)

/-- STEP_STATE report payload (R54, 11.7). -/
def stepStateReport (s : State) : List Byte :=
  [2, s.psc.stepState.code] ++ stepRefBytes (reportStep s) ++ [stepEventCode s.psc.lastEvent] ++
    stepRefBytes s.psc.queued ++ [byteOf s.psc.running.length]

/-- STORE_EVENT report payload (R180, 11.7). -/
def storeEventReport (s : State) : List Byte :=
  3 :: storeEventBytes s.srs.lastEvent ++ beBytes 2 (freeCountField s) ++ beBytes 5 (nextSealField s)

/-- STEP_VERDICT report payload (R190, 11.7). -/
def verdictReport (s : State) (p : Pos) (n : Fin 32) : List Byte := 4 :: resultBytes s p n

/-- SEAL_DONE report payload (R171, 11.7). -/
def sealDoneReport (e : SealDone) : List Byte :=
  [5, posByte e.pos] ++ beBytes 4 e.number ++ [boolByte e.slot.isSome] ++ beBytes 2 (e.slot.getD 0) ++
    [e.kind.code, boolByte e.slot.isNone]

/-- IDENTIFY_DONE report payload (R146, 11.7). -/
def identifyReport (s : State) (p : Pos) : List Byte :=
  [6, posByte p, identifyCode (s.identified p)] ++ serialBytes (s.pos p).serial

/-- GATE_RESULT report payload (R75, 11.7). -/
def gateReport (s : State) (p : Pos) : List Byte :=
  [7, posByte p, boolByte (s.pos p).latestGate.isSome] ++ gateResultBytes (s.pos p).latestGate

/-! ### PORT answers -/

/-- The tag of a deferred answer. -/
def PortAnswer.tag : PortAnswer → Byte
  | .ended t _ _ _ _ => t
  | .storeFull t => t

/-- The content of a deferred answer: status, outcome, flags, held length and up to 245 reply bytes, or the
status STORE_FULL alone (R169, R185, 11.7). -/
def PortAnswer.reply : PortAnswer → Reply
  | .storeFull _ => { status := .storeFull, bytes := [] }
  | .ended _ outcome reply truncated sum =>
    { status := .ok,
      bytes :=
        [outcome.code, byteOf (flagBit truncated 0 + flagBit (decide (Config.answerBytes < reply.length)) 1 + 4 * sum.code)] ++
          beBytes 2 reply.length ++ reply.take Config.answerBytes }

end Sys2Proof.Machine
end

