-- ==== Sys2Proof/Decode.lean ====
section
/-! DEFINITION. Commands as cells carry them (11.6, 11.7): the decoder of a kind and a payload, and the
encoder of a command. The rows of spec/opcode_table.json give no bits, so `decodeTableWord` reads none. -/

namespace Sys2Proof

/-! ### Fields of a payload -/

/-- The byte of a payload at an offset. -/
def byteAt (l : List Byte) (n : Nat) : Byte := l.getD n 0

/-- Two bytes of a payload as a word, high byte first. -/
def word16At (l : List Byte) (n : Nat) : Word16 := byteAt l n ++ byteAt l (n + 1)

/-- Three bytes of a payload as a word, high byte first. -/
def word24At (l : List Byte) (n : Nat) : Word24 := byteAt l n ++ word16At l (n + 1)

/-- Four bytes of a payload as a word, high byte first. -/
def word32At (l : List Byte) (n : Nat) : Word32 := word16At l n ++ word16At l (n + 2)

/-- A payload fits its kind when its length is the one the table gives (11.7). -/
def sized {α : Type} (n : Nat) (l : List Byte) (x : α) : Option α := if l.length = n then some x else none

/-! ### Records -/

/-- The profile of PROFILE_WRITE (11.7). -/
def profileAt (l : List Byte) : ProfileRecord :=
  { divisor := word16At l 0, dataBits := byteAt l 2, parity := byteAt l 3, stopBits := byteAt l 4,
    gap := word16At l 5, codeAt := byteAt l 7, checksum := byteAt l 8, start := byteAt l 9 }

/-- The template of TEMPLATE_WRITE, after its template byte (11.7). -/
def templateAt (l : List Byte) : TemplateRecord :=
  { timeout := word16At l 1, offset := byteAt l 3, length := byteAt l 4, encoding := byteAt l 5,
    body := l.drop 7 }

/-- A patch field of a rule record. -/
def patchAt (l : List Byte) (n : Nat) : PatchRecord :=
  { offset := byteAt l n, source := byteAt l (n + 1), order := byteAt l (n + 2) }

/-- The rule record, after its index (11.7). -/
def ruleAt (l : List Byte) : RuleRecord :=
  { enabled := byteAt l 1, value := word16At l 2, mask := word16At l 4, action := byteAt l 6,
    allowed := byteAt l 7, expectReply := byteAt l 8, timeout := byteAt l 9, patchCount := byteAt l 10,
    patch1 := patchAt l 11, patch2 := patchAt l 14, ackPresent := byteAt l 17, ackOffset := byteAt l 18,
    ackByte := byteAt l 19 }

/-- The step record, after its slot (11.7). -/
def stepAt (l : List Byte) : StepRecord :=
  { kind := byteAt l 1, trigger := byteAt l 2, delay := word16At l 3, cref := word32At l 5,
    refEdge := byteAt l 9, gateMode := byteAt l 10, gateArg := word32At l 11, gates := byteAt l 15,
    warmUp := byteAt l 16, extra := byteAt l 17, noise := byteAt l 18, lower := word32At l 19,
    upper := word32At l 23, spread := word32At l 27, timeout := word32At l 31, tangent := word16At l 35,
    clock := byteAt l 37, divisor := word24At l 38, window := word32At l 41, allowance := byteAt l 45,
    unit := word32At l 46, digits := byteAt l 50, settle := word16At l 51 }

/-- The settings of POSITION_LOAD (11.7). -/
def loadAt (l : List Byte) : LoadRecord :=
  { position := byteAt l 0, cmut := word32At l 1, line := byteAt l 5, deadTime := word16At l 6,
    gainWidth := byteAt l 8, gainUnit := word24At l 9, phaseWidth := byteAt l 12, phaseUnit := word24At l 13,
    carried := byteAt l 16, gain := word16At l 17, phase := word16At l 19 }

/-! ### The decoder -/

/-- Step B of CORRECTION_COMPUTE: its carried byte 0 no, 1 yes. -/
def stepBAt (l : List Byte) : Option (Option Byte) :=
  match (byteAt l 3).toNat with
  | 0 => some none
  | 1 => some (some (byteAt l 4))
  | _ => none

/-- CORRECTION_COMPUTE. -/
def decodeCorrection (tag : Byte) (l : List Byte) : Option Instr :=
  match sized 5 l (stepBAt l) with
  | some (some b) => some (.correctionCompute tag (word16At l 0) (byteAt l 2) b)
  | _ => none

/-- MODULE_RESET: 0 RUN, 1 FULL. -/
def decodeReset (tag : Byte) (l : List Byte) : Option Instr :=
  match sized 1 l (byteAt l 0).toNat with
  | some 0 => some (.moduleResetRun (.addressed tag))
  | some 1 => some (.moduleResetFull tag)
  | _ => none

/-- POSITION_INCLUDE: 0 off, 1 on. -/
def decodeInclude (tag : Byte) (l : List Byte) : Option Instr :=
  match sized 2 l (byteAt l 1).toNat with
  | some 0 => some (.positionIncludeOff tag (byteAt l 0))
  | some 1 => some (.positionIncludeOn tag (byteAt l 0))
  | _ => none

/-- PORT: a position and a frame, which may be of any length. -/
def decodePort (tag : Byte) (l : List Byte) : Option Instr :=
  match l with
  | [] => none
  | p :: frame => some (.port tag p frame)

/-- The command of a kind with a payload; none where the payload does not fit the kind (R184, 11.6, 11.7).
The kinds that are no command of this part are UNKNOWN_KIND. -/
def decodeCommand (kind tag : Byte) (l : List Byte) : Option Instr :=
  match kind.toNat with
  | 0x01 => sized 0 l (.statusRead tag)
  | 0x02 => sized 2 l (.settingsWrite tag (byteAt l 0) (byteAt l 1))
  | 0x03 => sized 0 l (.settingsRead tag)
  | 0x04 => decodeReset tag l
  | 0x10 => sized 10 l (.profileWrite tag (profileAt l))
  | 0x11 => sized 0 l (.profileRead tag)
  | 0x12 => if 7 ≤ l.length then sized (7 + (byteAt l 6).toNat) l (.templateWrite tag (byteAt l 0) (templateAt l)) else none
  | 0x13 => sized 1 l (.templateRead tag (byteAt l 0))
  | 0x14 => sized 2 l (.identify tag (word16At l 0))
  | 0x18 => sized 20 l (.ruleWrite tag (byteAt l 0) (ruleAt l))
  | 0x19 => sized 1 l (.ruleRead tag (byteAt l 0))
  | 0x20 => sized 53 l (.planWrite tag (byteAt l 0) (stepAt l))
  | 0x21 => sized 1 l (.planRead tag (byteAt l 0))
  | 0x22 => sized 1 l (.planClear tag (byteAt l 0))
  | 0x24 => sized 5 l (.stepRun (.addressed tag) (byteAt l 0) (word32At l 1))
  | 0x25 => sized 5 l (.stepQueue (.addressed tag) (byteAt l 0) (word32At l 1))
  | 0x26 => sized 0 l (.stepAbort (.addressed tag))
  | 0x30 => sized 21 l (.positionLoad tag (loadAt l))
  | 0x31 => sized 1 l (.positionClear tag (byteAt l 0))
  | 0x32 => decodeInclude tag l
  | 0x33 => sized 1 l (.positionRead tag (byteAt l 0))
  | 0x34 => sized 2 l (.resultRead tag (byteAt l 0) (byteAt l 1))
  | 0x38 => decodeCorrection tag l
  | 0x39 =>
    if 3 ≤ l.length then sized (3 + (byteAt l 2).toNat) l (.verifyEvaluate tag (word16At l 0) (l.drop 3))
    else none
  | 0x40 => decodePort tag l
  | 0x48 => sized 0 l (.storeStatus tag)
  | 0x49 => sized 2 l (.storeRead tag (word16At l 0))
  | 0x4A => sized 4 l (.storeCollect tag (word32At l 0))
  | 0x4B => sized 1 l (.storeErase tag (byteAt l 0))
  | _ => some (.unknownKind tag)

/-- A broadcast the module takes: STEP_RUN, STEP_QUEUE, STEP_ABORT, and MODULE_RESET with the RUN choice
(R186). -/
def decodeBroadcast (kind : Byte) (l : List Byte) : Option Instr :=
  match kind.toNat with
  | 0x04 => if l = [0] then some (.moduleResetRun .broadcast) else none
  | 0x24 => sized 5 l (.stepRun .broadcast (byteAt l 0) (word32At l 1))
  | 0x25 => sized 5 l (.stepQueue .broadcast (byteAt l 0) (word32At l 1))
  | 0x26 => sized 0 l (.stepAbort .broadcast)
  | _ => none

/-! ### The encoder -/

/-- The bytes of a word of two bytes, high byte first. -/
def bytes16 (w : Word16) : List Byte := [w.extractLsb' 8 8, w.extractLsb' 0 8]

/-- The bytes of a word of three bytes, high byte first. -/
def bytes24 (w : Word24) : List Byte := [w.extractLsb' 16 8, w.extractLsb' 8 8, w.extractLsb' 0 8]

/-- The bytes of a word of four bytes, high byte first. -/
def bytes32 (w : Word32) : List Byte :=
  [w.extractLsb' 24 8, w.extractLsb' 16 8, w.extractLsb' 8 8, w.extractLsb' 0 8]

/-- The payload of PROFILE_WRITE. -/
def ProfileRecord.payload (r : ProfileRecord) : List Byte :=
  bytes16 r.divisor ++ [r.dataBits, r.parity, r.stopBits] ++ bytes16 r.gap ++ [r.codeAt, r.checksum, r.start]

/-- The payload of TEMPLATE_WRITE after its template byte. -/
def TemplateRecord.payload (r : TemplateRecord) : List Byte :=
  bytes16 r.timeout ++ [r.offset, r.length, r.encoding, BitVec.ofNat 8 r.body.length] ++ r.body

/-- A patch field. -/
def PatchRecord.payload (r : PatchRecord) : List Byte := [r.offset, r.source, r.order]

/-- The rule record after its index. -/
def RuleRecord.payload (r : RuleRecord) : List Byte :=
  [r.enabled] ++ bytes16 r.value ++ bytes16 r.mask ++
    [r.action, r.allowed, r.expectReply, r.timeout, r.patchCount] ++ r.patch1.payload ++ r.patch2.payload ++
    [r.ackPresent, r.ackOffset, r.ackByte]

/-- The step record after its slot. -/
def StepRecord.payload (r : StepRecord) : List Byte :=
  [r.kind, r.trigger] ++ bytes16 r.delay ++ bytes32 r.cref ++ [r.refEdge, r.gateMode] ++ bytes32 r.gateArg ++
    [r.gates, r.warmUp, r.extra, r.noise] ++ bytes32 r.lower ++ bytes32 r.upper ++ bytes32 r.spread ++
    bytes32 r.timeout ++ bytes16 r.tangent ++ [r.clock] ++ bytes24 r.divisor ++ bytes32 r.window ++
    [r.allowance] ++ bytes32 r.unit ++ [r.digits] ++ bytes16 r.settle

/-- The payload of POSITION_LOAD. -/
def LoadRecord.payload (r : LoadRecord) : List Byte :=
  [r.position] ++ bytes32 r.cmut ++ [r.line] ++ bytes16 r.deadTime ++ [r.gainWidth] ++ bytes24 r.gainUnit ++
    [r.phaseWidth] ++ bytes24 r.phaseUnit ++ [r.carried] ++ bytes16 r.gain ++ bytes16 r.phase

/-- Step B of CORRECTION_COMPUTE. -/
def stepBPayload : Option Byte → List Byte
  | none => [0, 0]
  | some b => [1, b]

/-- The kind, tag and payload of an addressed command. An UNKNOWN_KIND command has no one kind, so none is
given for it. -/
def encodeCommand : Instr → Option (Byte × Byte × List Byte)
  | .statusRead tag => some (0x01, tag, [])
  | .settingsWrite tag limit reports => some (0x02, tag, [limit, reports])
  | .settingsRead tag => some (0x03, tag, [])
  | .moduleResetRun (.addressed tag) => some (0x04, tag, [0])
  | .moduleResetFull tag => some (0x04, tag, [1])
  | .profileWrite tag r => some (0x10, tag, r.payload)
  | .profileRead tag => some (0x11, tag, [])
  | .templateWrite tag which r => some (0x12, tag, which :: r.payload)
  | .templateRead tag which => some (0x13, tag, [which])
  | .identify tag mask => some (0x14, tag, bytes16 mask)
  | .ruleWrite tag index r => some (0x18, tag, index :: r.payload)
  | .ruleRead tag index => some (0x19, tag, [index])
  | .planWrite tag slot r => some (0x20, tag, slot :: r.payload)
  | .planRead tag slot => some (0x21, tag, [slot])
  | .planClear tag slot => some (0x22, tag, [slot])
  | .stepRun (.addressed tag) slot run => some (0x24, tag, slot :: bytes32 run)
  | .stepQueue (.addressed tag) slot run => some (0x25, tag, slot :: bytes32 run)
  | .stepAbort (.addressed tag) => some (0x26, tag, [])
  | .positionLoad tag r => some (0x30, tag, r.payload)
  | .positionClear tag position => some (0x31, tag, [position])
  | .positionIncludeOn tag position => some (0x32, tag, [position, 1])
  | .positionIncludeOff tag position => some (0x32, tag, [position, 0])
  | .positionRead tag position => some (0x33, tag, [position])
  | .resultRead tag position stepNo => some (0x34, tag, [position, stepNo])
  | .correctionCompute tag mask a b => some (0x38, tag, bytes16 mask ++ [a] ++ stepBPayload b)
  | .verifyEvaluate tag mask steps =>
    some (0x39, tag, bytes16 mask ++ [BitVec.ofNat 8 steps.length] ++ steps)
  | .port tag position frame => some (0x40, tag, position :: frame)
  | .storeStatus tag => some (0x48, tag, [])
  | .storeRead tag slot => some (0x49, tag, bytes16 slot)
  | .storeCollect tag number => some (0x4A, tag, bytes32 number)
  | .storeErase tag sector => some (0x4B, tag, [sector])
  | .powerOn _ => none
  | .fullResetAct => none
  | .scanDone => none
  | .candidateEdge _ => none
  | .referenceEdge _ _ => none
  | .refLost => none
  | .syncEdge => none
  | .sourceReadyAssertion => none
  | .triggerDelayExpiry => none
  | .windowEnd => none
  | .settleExpiry => none
  | .gateTimeout _ => none
  | .transactionStart _ => none
  | .sendingEnd _ => none
  | .firstStartBit _ => none
  | .replyTimeout _ => none
  | .replyEnd _ _ => none
  | .heldAnswerTaken => none
  | .jobStart => none
  | .headerJobEnd _ => none
  | .bodyJobEnd _ => none
  | .fullRecordJobEnd _ => none
  | .collectJobEnd _ => none
  | .eraseJobEnd _ => none
  | .upCellReceived _ => none
  | .downCellReceived _ => none
  | .downForwardSend => none
  | .upCellBoundary => none
  | .reportBuild => none
  | .unknownKind _ => none
  | .moduleResetRun .broadcast => none
  | .stepRun .broadcast _ _ => none
  | .stepQueue .broadcast _ _ => none
  | .stepAbort .broadcast => none
  | .sourceReadyFall => none
  | .syncInFall => none
  | .unselectedTransition _ => none
  | .fillBeforeCellComplete _ => none

/-- The command a word spells by the bits of spec/opcode_table.json: the table gives no row any bits. -/
def decodeTableWord (_nbits _w : Nat) : Option Instr := none

end Sys2Proof
end

