-- ==== Sys2Proof/Machine/Link.lean ====
section
/-! DEFINITION. The answer path of the Bench Link Interface: cells the module sends, the taking of a
command, owed and held answers (11.1, 11.3). -/

namespace Sys2Proof.Machine

/-- The kind of an ANSWER cell (11.6). -/
def answerKind : Byte := 0xE0

/-- The kind of a REPORT cell (11.6). -/
def reportKind : Byte := 0xE1

/-- The module address as it stands in a cell. -/
def State.address (s : State) : Byte := byteOf s.strap.toNat

/-- The strap names a module: 0 and 15 do not (section 6). -/
def State.strapped (s : State) : Bool := decide (s.strap ≠ 0) && decide (s.strap ≠ 15)

/-- An ANSWER cell (R183, 11.7). -/
def answerCell (s : State) (tag : Byte) (a : Reply) : Cell :=
  { dest := 0, source := s.address, kind := answerKind, tag := tag, payload := a.status.code :: a.bytes }

/-- A REPORT cell (R183). Its source is the strap's value also where that is 0 or 15, which is no module address (DESIGN
CHOICE, assumption 40). -/
def reportCell (s : State) (payload : List Byte) : Cell :=
  { dest := 0, source := s.address, kind := reportKind, tag := 0, payload := payload }

/-- An answer cell joins the tail of the answer queue (R184). -/
def pushAnswer (tag : Byte) (a : Reply) (s : State) : State :=
  { s with bli := { s.bli with
      answers := s.bli.answers ++ [{ cell := answerCell s tag a, actsFull := false }] } }

/-- The answer queue holds 8 cells (R184). -/
def State.answersFull (s : State) : Bool := decide (Config.answerPlaces ≤ s.bli.answers.length)

/-- Cells addressed to the module are not taken: it has no address, or a FULL reset waits for its answer
(R182, R187). -/
def State.deaf (s : State) : Bool := !s.strapped || s.bli.fullPending

/-- A command dropped and counted (R184). -/
def dropCommand (s : State) : State :=
  { s with bli := { s.bli with commandDrops := tallyUp s.bli.commandDrops } }

/-- The taking of an addressed command: drop check, the owner's act, and the answer (R184). -/
def takeCommand (tag : Byte) (act : State → State × Reply) (s : State) : State :=
  if s.deaf then s
  else if s.answersFull then dropCommand s
  else pushAnswer tag (act s).2 (act s).1

/-- The taking of a command that may be broadcast: a broadcast gets no answer and passes no drop check
(R51, R186). -/
def takeVia (via : Via) (act : State → State × Reply) (s : State) : State :=
  match via with
  | .addressed tag => takeCommand tag act s
  | .broadcast => if s.deaf then s else (act s).1

/-- A refusal: the status alone, and nothing changed. -/
def refuse (st : Status) (s : State) : State × Reply := (s, { status := st, bytes := [] })

/-- An OK answer with its payload. -/
def accept (bytes : List Byte) (s : State) : State × Reply := (s, { status := .ok, bytes := bytes })

/-- An offered answer is no longer owed (R185). -/
def settleOwed (s : State) : State := { s with bli := { s.bli with owed := s.bli.owed - 1 } }

/-- A deferred answer joins the answer queue (R141). -/
def pushPortAnswer (a : PortAnswer) (s : State) : State := pushAnswer a.tag a.reply s

/-- An answer joins the held ones, last in their order (R185). -/
def holdAnswer (h : HeldAt) (s : State) : State :=
  { s with bli := { s.bli with held := s.bli.held ++ [h] } }

end Sys2Proof.Machine
end

