-- ==== Sys2Proof/Machine/Building.lean ====
section
/-! DEFINITION. The building of reports (R189, R190). -/

namespace Sys2Proof.Machine

/-- A report joins the tail of the report queue (R190). -/
def pushReport (payload : List Byte) (s : State) : State :=
  { s with bli := { s.bli with reports := s.bli.reports ++ [reportCell s payload] } }

/-- The report queue holds 16 cells (R184). -/
def State.reportsFull (s : State) : Bool := decide (Config.reportPlaces ≤ s.bli.reports.length)

/-- The oldest SEAL_DONE entry of a position. -/
def oldestSealDone (s : State) (p : Pos) : Option SealDone :=
  s.bli.sealDone.find? (fun e => decide (e.pos = p))

/-- The oldest SEAL_DONE entry of a position removed. -/
def dropSealDone (p : Pos) (s : State) : State :=
  { s with bli := { s.bli with sealDone := s.bli.sealDone.eraseP (fun e => decide (e.pos = p)) } }

/-- The position has something to report. -/
def hasReport (s : State) (p : Pos) : Bool :=
  (s.marks p).verdict.isSome || (oldestSealDone s p).isSome || (s.marks p).identify || (s.marks p).gate

/-- The GATE_RESULT report of a position, the last in its order (R190). -/
def buildGateReport (p : Pos) (s : State) : State :=
  if (s.marks p).gate then pushReport (gateReport s p) (s.setMarks p { s.marks p with gate := false }) else s

/-- The IDENTIFY_DONE report of a position, or what comes after it (R190). -/
def buildIdentifyReport (p : Pos) (s : State) : State :=
  if (s.marks p).identify then
    pushReport (identifyReport s p) (s.setMarks p { s.marks p with identify := false })
  else buildGateReport p s

/-- The oldest SEAL_DONE report of a position, or what comes after it (R190). -/
def buildSealReport (p : Pos) (s : State) : State :=
  match oldestSealDone s p with
  | some e => pushReport (sealDoneReport e) (dropSealDone p s)
  | none => buildIdentifyReport p s

/-- The first report of a position, in the order STEP_VERDICT, SEAL_DONE, IDENTIFY_DONE, GATE_RESULT
(R190). -/
def buildPositionReport (p : Pos) (s : State) : State :=
  match (s.marks p).verdict with
  | some n => pushReport (verdictReport s p n) (s.setMarks p { s.marks p with verdict := none })
  | none => buildSealReport p s

/-- The report of the first position that has one (R190). -/
def buildFirstPosition (s : State) : State :=
  match allPos.find? (hasReport s) with
  | some p => buildPositionReport p s
  | none => s

/-- One report built, the module marks first (R190). -/
def buildReport (s : State) : State :=
  if s.bli.markRefLost then
    pushReport (refLostReport s) { s with bli := { s.bli with markRefLost := false } }
  else if s.bli.markStepState then
    pushReport (stepStateReport s) { s with bli := { s.bli with markStepState := false } }
  else if s.bli.markStore then
    pushReport (storeEventReport s) { s with bli := { s.bli with markStore := false } }
  else buildFirstPosition s

/-- REPORT_BUILD: one report, while the queue has room (R190). -/
def reportBuild (s : State) : State := if s.reportsFull then s else buildReport s

/-- Some mark is set or some entry is listed (R190). -/
def State.hasMark (s : State) : Bool :=
  s.bli.markRefLost || s.bli.markStepState || s.bli.markStore || allPos.any (hasReport s)

/-- A report is to be built (R190). -/
def State.reportDue (s : State) : Bool := s.hasMark && !s.reportsFull

/-- At most so many reports built, each from the state the one before it left (R190). -/
def buildReports : Nat → State → State
  | 0, s => s
  | n + 1, s => if s.reportDue then buildReports n (buildReport s) else s

/-- Every report that is due built, as the queue has room for 16 of them. This ends each event that sets a mark, lists
an entry or frees a place of the queue (R190; assumption 19). -/
def buildDue (s : State) : State := buildReports Config.reportPlaces s

end Sys2Proof.Machine
end

