-- ==== Sys2Proof/Machine/Reports.lean ====
section
/-! DEFINITION. REPORT_BUILD (R190), and the commands the Bench Link Interface answers itself (R184, R188). -/

namespace Sys2Proof.Machine

/-- STATUS_READ at its owner (R188). -/
def statusReadActs (s : State) : State × Reply := accept (statusBytes s) s

/-- REPORT_BUILD (R190). -/
def execReportBuild (s : State) : Host.Outcome State Fault Refusal := .next (reportBuild s)

/-- UNKNOWN_KIND (R184). -/
def execUnknownKind (tag : Byte) (s : State) : Host.Outcome State Fault Refusal :=
  .next (takeCommand tag (refuse .unknownKind) s)

/-- STATUS_READ (R188). -/
def execStatusRead (tag : Byte) (s : State) : Host.Outcome State Fault Refusal :=
  .next (takeCommand tag statusReadActs s)

end Sys2Proof.Machine
end

