-- ==== Sys2Proof/Machine/Channels.lean ====
section
/-! DEFINITION. Slots, the channel arbiter and the start of a transaction (8.4, 8.5), and the placing of
owed register reads (R107). -/

namespace Sys2Proof.Machine

/-! ### Characters (8.1, R133) -/

/-- The data bits of a byte, the least significant first: eight, or the lower seven. -/
def dataBits (f : Profile) (b : Byte) : List Bool :=
  (List.range (if f.sevenBits then 7 else 8)).map (fun i => b.getLsbD i)

/-- The parity of some bits: whether an odd number of them is 1. -/
def oddOnes (l : List Bool) : Bool := l.foldl (fun acc b => acc ^^ b) false

/-- The parity bit of a byte, if the format has one: EVEN makes the number of ones in the data bits and the parity
bit even, ODD makes it odd. -/
def parityBit (f : Profile) (b : Byte) : Option Bool :=
  match f.parity with
  | .none => none
  | .even => some (oddOnes (dataBits f b))
  | .odd => some (!oddOnes (dataBits f b))

/-- The levels of a character: a low start bit, the data bits, the parity bit if there is one, a high stop bit. -/
def charLevels (f : Profile) (b : Byte) : List Bool :=
  false :: dataBits f b ++ (parityBit f b).toList ++ [true]

/-- A byte as a character to be sent, one bit lasting D + 1 microseconds. -/
def wireChar (f : Profile) (b : Byte) : WireChar :=
  { levels := charLevels f b, bitMicros := f.divisor + 1, left := (charLevels f b).length * (f.divisor + 1) }

/-- The level a character gives the line now. -/
def WireChar.level (c : WireChar) : Bool :=
  c.levels.getD ((c.levels.length * c.bitMicros - c.left) / c.bitMicros) true

/-- The level of OPT_TX: that of the character on the line, and high with none (assumption 31). -/
def Channel.txLevel (c : Channel) : Bool :=
  match c.wire with
  | [] => true
  | x :: _ => x.level

/-- What is left to send one microsecond later. -/
def passWire : List WireChar → List WireChar
  | [] => []
  | c :: rest => if c.left ≤ 1 then rest else { c with left := c.left - 1 } :: rest

/-! ### Transactions at their start -/

/-- The stored template of a request. -/
def Pch.templateOf (c : Pch) : TemplateRequest → TemplateRecord
  | .identify => c.identify
  | .registerRead _ => c.registerRead

/-- The owner of a template transaction. -/
def templateOwner (t : TemplateRecord) : TemplateRequest → Owner
  | .identify => .identify t
  | .registerRead digits => .registerRead digits t

/-- The transaction of a template request at its start: the profile and the template are copied and the
frame is built (R136, R138). -/
def templateTransaction (c : Pch) (q : TemplateRequest) : Transaction :=
  { owner := templateOwner (c.templateOf q) q,
    frame := withChecksum c.profile.checksum c.profile.start (c.templateOf q).body,
    expectReply := true, timeout := (c.templateOf q).timeout.toNat, profile := c.profile }

/-- The transaction of a relay request at its start (R138). -/
def relayTransaction (c : Pch) (r : RelayRequest) : Transaction :=
  { owner := .relay r, frame := r.frame, expectReply := r.expectReply, timeout := r.timeout,
    profile := c.profile }

/-- A channel that enters SENDING with a transaction: the characters of its frame go out one after another, behind
a character that the line may still be completing (R133, R138; assumption 32). -/
def Channel.enterSending (c : Channel) (t : Transaction) : Channel :=
  { c with state := .sending t, wire := c.wire ++ t.frame.map (wireChar t.profile) }

/-- The channel's state is IDLE. -/
def Channel.isIdle (c : Channel) : Bool :=
  match c.state with
  | .idle => true
  | _ => false

/-- The register context's read is due. -/
def owesRead : Option RegContext → Bool
  | none => false
  | some c => decide (c.read = .owed)

/-- The read state of a position's register context replaced. -/
def setRead (p : Pos) (x : ReadState) (s : State) : State :=
  match s.reg p with
  | none => s
  | some c => s.setReg p (some { c with read := x })

/-- The register digits of the active step (R107). -/
def State.activeDigits (s : State) : Nat :=
  match s.activeRecord with
  | none => 0
  | some r => r.digits.toNat

/-- An owed read is placed in the position's internal slot when that slot is empty (R107). -/
def placeOwed (p : Pos) (s : State) : State :=
  if owesRead (s.reg p) && (s.chan p).internal.isNone then
    setRead p .placed (s.setChan p { s.chan p with internal := some (.registerRead s.activeDigits) })
  else s

/-- The read state becomes ACTIVE when a REGISTER_READ request starts (R107). -/
def startedRead (p : Pos) (q : TemplateRequest) (s : State) : State :=
  match q with
  | .identify => s
  | .registerRead _ => setRead p .active s

/-- A template request leaves its slot and its transaction starts; the slot it left takes an owed read
(R107, R138, R142). -/
def startTemplate (p : Pos) (q : TemplateRequest) (s : State) : State :=
  placeOwed p (startedRead p q
    (s.setChan p ({ s.chan p with internal := none }.enterSending (templateTransaction s.pch q))))

/-- A relay request leaves its slot and its transaction starts (R138, R142). -/
def startRelay (p : Pos) (r : RelayRequest) (s : State) : State :=
  s.setChan p ({ s.chan p with relay := .empty }.enterSending (relayTransaction s.pch r))

/-- An IDLE channel starts a request it can send: the one in its internal slot, else a sendable one in its
relay slot (R142). A request whose template is empty sends nothing, and ends by `quiesce` on the same
event (R136). -/
def tryStart (p : Pos) (s : State) : State :=
  if (s.chan p).isIdle then
    match (s.chan p).internal with
    | some q => if (s.pch.templateOf q).body.isEmpty then s else startTemplate p q s
    | none =>
      match (s.chan p).relay with
      | .waiting r => if r.sendable then startRelay p r s else s
      | _ => s
  else s

/-- A template request is placed in an empty internal slot, and starts at once on an IDLE channel (R142). -/
def placeTemplate (p : Pos) (q : TemplateRequest) (s : State) : State :=
  tryStart p (s.setChan p { s.chan p with internal := some q })

/-- An owed read is placed, and starts at once on an IDLE channel (R107, R142). -/
def placeRead (p : Pos) (s : State) : State := tryStart p (placeOwed p s)

/-- A relay request enters the empty relay slot, and starts at once on an IDLE channel when it is sendable
(R142, R154). -/
def handRelay (p : Pos) (r : RelayRequest) (s : State) : State :=
  tryStart p (s.setChan p { s.chan p with relay := .waiting r })

/-- The relay slot is empty (R154). -/
def Channel.relayFree (c : Channel) : Bool :=
  match c.relay with
  | .empty => true
  | _ => false

/-- The transaction the channel carries in SENDING, AWAIT_REPLY or RECEIVING. -/
def Channel.transaction (c : Channel) : Option Transaction :=
  match c.state with
  | .sending t => some t
  | .awaitReply t _ => some t
  | .receiving t => some t
  | _ => none

/-- The transaction is a REGISTER_READ. -/
def isReadTransaction : Option Transaction → Bool
  | some { owner := .registerRead _ _, .. } => true
  | _ => false

/-- The transaction is an IDENTIFY. -/
def isIdentifyTransaction : Option Transaction → Bool
  | some { owner := .identify _, .. } => true
  | _ => false

/-- The waiting template request is a REGISTER_READ. -/
def isReadRequest : Option TemplateRequest → Bool
  | some (.registerRead _) => true
  | _ => false

/-- The outcome of an IDENTIFY request (R146). -/
def identifyOutcome (p : Pos) (o : IdentifyOutcome) (serial : Option (List Byte)) (s : State) : State :=
  markIdentify p
    ((s.setIdentified p (some o)).setPos p
      { s.pos p with serial := if (s.pos p).state = .empty then none else serial })

/-- The channel is IDLE with a template request whose template is empty (R136). -/
def emptyRequest (s : State) (p : Pos) : Option TemplateRequest :=
  if (s.chan p).isIdle then (s.chan p).internal.filter (fun q => (s.pch.templateOf q).body.isEmpty) else none

/-- A channel back in IDLE, its buffer freed (R140, R141). -/
def Channel.free (c : Channel) : Channel := { c with state := .idle, buffer := .empty }

/-- The character on the line, which an ended transaction leaves to be completed (R144). -/
def Channel.onLine (c : Channel) : List WireChar := c.wire.take 1

/-- A channel whose transaction was ended: IDLE, its reply bytes dropped, and of a frame being sent only the
character on the line still goes out (R144). -/
def Channel.cut (c : Channel) : Channel := { c.free with wire := c.onLine }

/-- The waiting REGISTER_READ request of a position is withdrawn, and its transaction in progress is ended
with its reading dropped (R113, R144). The abort or exclusion gives the verdict. -/
def endRead (p : Pos) (s : State) : State :=
  let c := s.chan p
  let c := if isReadRequest c.internal then { c with internal := none } else c
  s.setChan p (if isReadTransaction c.transaction then c.cut else c)

end Sys2Proof.Machine
end

