-- ==== Sys2Proof/Machine/Steps.lean ====
section
/-! DEFINITION. Plan and Step Control: verdicts, the start, completion, abort of a step, its phases and the
use it makes of the window timer (chapter 3, and the phases of chapter 6). -/

namespace Sys2Proof.Machine

/-! ### Verdicts (R28, R29, R46) -/

/-- A VERIFIED record after a verdict (R29). -/
def demote (r : PositionRecord) : PositionRecord :=
  if r.state = .verified then
    { r with state := if r.trimRounds = 0 then .loaded else .trimmed, verification := [] }
  else r

/-- A verdict recorded: the entry in its place, the run id, the demotion, the mark (R28). -/
def recordVerdict (p : Pos) (n : Fin 32) (e : Entry) (s : State) : State :=
  markVerdict p n
    (s.setPos p (demote { s.pos p with results := (s.pos p).results.set n.val (some e), runId := some e.runId }))

/-- The position leaves the running set (R46). -/
def leaveRunning (p : Pos) (s : State) : State :=
  { s with psc := { s.psc with running := s.psc.running.filter (fun q => decide (q ≠ p)) } }

/-- A verdict for a running position is recorded and takes it out of the running set; any other is dropped
(R46). -/
def giveVerdict (p : Pos) (e : Entry) (s : State) : State :=
  if s.isRunning p then
    match s.psc.active with
    | none => s
    | some r => leaveRunning p (recordVerdict p r.slot e s)
  else s

/-- The run id of the active step. -/
def State.activeRun (s : State) : Word32 :=
  match s.psc.active with
  | none => 0
  | some r => r.run

/-- The kind of the active step. -/
def State.activeKind (s : State) : Option StepKind :=
  match s.activeRecord with
  | none => none
  | some r => stepKind r

/-- The gate length latched at the last opening, if there was one (R71). -/
def nUsed (g : GateContext) : Option Nat :=
  match g.latch with
  | none => none
  | some l => some l.n

/-- The entry an ERROR measurement leaves, however it ends (R71). -/
def errorEntry (run : Word32) (v : Verdict) (g : GateContext) : Entry :=
  { verdict := v, runId := run, saturated := g.saturated, nClamped := g.nClamped,
    fields := .error g.accepted g.attempts (nUsed g) (stepStatistics g.errorSum g.bounds g.accepted) }

/-- The first reading a register context holds. -/
def contextR0 : Option RegContext → Option Nat
  | none => none
  | some c => c.r0

/-- The count of a window record; 0 where none is held (R104). -/
def windowCount : Option WindowRecord → Nat
  | none => 0
  | some w => w.count

/-- An entry without flags. -/
def plainEntry (run : Word32) (v : Verdict) (f : EntryFields) : Entry :=
  { verdict := v, runId := run, saturated := false, nClamped := false, fields := f }

/-- The entry of a verdict given from outside a measurement, ABORTED or REF_LOST, by what the position holds
(R53, R71, R104, R113). -/
def cutEntry (v : Verdict) (p : Pos) (s : State) : Entry :=
  match s.activeKind with
  | some .creep => plainEntry s.activeRun v (.creep (windowCount (s.window p)))
  | some .start => plainEntry s.activeRun v (.start none)
  | some .register => plainEntry s.activeRun v (.register (contextR0 (s.reg p)) none none)
  | _ =>
    match s.gate p with
    | none => plainEntry s.activeRun v (.error 0 0 none none)
    | some g => errorEntry s.activeRun v g

/-! ### The window timer (R13, R14, R44, R45) -/

/-- A start request: a new use of the timer (R45). -/
def startTimer (use : TimerUse) (clock : TimerClock) (divisor matchValue : Nat) (s : State) : State :=
  { s with
    piu := { s.piu with timer := .start clock divisor matchValue },
    psc := { s.psc with timerUse := use, useNo := s.psc.useNo + 1 } }

/-- A stop request: no use is left (R14). -/
def stopTimer (s : State) : State :=
  { s with
    piu := { s.piu with timer := s.piu.timer.stop },
    psc := { s.psc with timerUse := .none } }

/-- The reference presence monitor set (R11). -/
def setMonitor (m : Monitor) (s : State) : State := { s with piu := { s.piu with monitor := m } }

/-- The module step state entered. -/
def setStepState (x : StepState) (s : State) : State := { s with psc := { s.psc with stepState := x } }

/-! ### Phases of a step (R42 to R45) -/

/-- A gate context at its creation (R58). -/
def GateContext.fresh (now : Word32) : GateContext :=
  { state := .seek, index := 0, latch := none, count := 0, m := 0, overrange := false, discards := 0,
    attempts := 0, accepted := 0, errorSum := 0, bounds := none, saturated := false, nClamped := false,
    timeoutStart := now }

/-- Every running position of an ERROR step gets a gate context in SEEK (R58). -/
def createGates (s : State) : State :=
  forEach s.psc.running (fun p t => t.setGate p (some (.fresh s.piu.millis))) s

/-- Every running position of a CREEP or START step gets a window record (R100). -/
def createWindows (waiting : Bool) (s : State) : State :=
  forEach s.psc.running
    (fun p t => t.setWindow p (some { count := 0, waiting := waiting, decided := false })) s

/-- The window of a step starts (R44). -/
def startWindow (r : StepRecord) (s : State) : State :=
  startTimer .window (stepClock r) r.divisor.toNat r.window.toNat s

/-- The window start is kept (R100). -/
def keepWindowStart (s : State) : State := { s with psc := { s.psc with windowStart := s.piu.millis } }

/-- The work that begins at the entry to RUNNING, by kind (R44). -/
def beginWork (r : StepRecord) (k : StepKind) (s : State) : State :=
  match k with
  | .error => createGates (setMonitor (.armed 0) { s with psc := { s.psc with timerUse := .none } })
  | .creep => createWindows false (keepWindowStart (startWindow r s))
  | .start => createWindows true (keepWindowStart (startWindow r s))
  | .register => setMonitor (.armed 0) (startWindow r s)

/-- Entry to RUNNING (R44). -/
def enterRunning (s : State) : State :=
  match s.activeRecord with
  | none => s
  | some r =>
    match stepKind r with
    | none => s
    | some k => beginWork r k (recordStepEvent .running (setStepState .running s))

/-- Entry to SETTLING; a delay of 0 ends at once (R44). -/
def enterSettling (s : State) : State :=
  match s.activeRecord with
  | none => s
  | some r =>
    let t := startTimer .triggerDelay .ms 1 r.delay.toNat (setStepState .settling s)
    if r.delay.toNat = 0 then enterRunning t else t

/-- The trigger is taken at the entry to ARMED (R43). -/
def triggerAtEntry (r : StepRecord) (source : Bool) : Bool :=
  match stepTrigger r with
  | some .immediate => true
  | some .sourceReady => source
  | _ => false

/-- Entry to ARMED (R43). -/
def enterArmed (s : State) : State :=
  match s.activeRecord with
  | none => s
  | some r =>
    let t := recordStepEvent .armed (setStepState .armed s)
    if triggerAtEntry r s.piu.source then enterSettling t else t

/-- A trigger event taken in ARMED for a step with that trigger; any other is dropped (R43). -/
def takeTrigger (trigger : Trigger) (s : State) : State :=
  match s.activeRecord with
  | none => s
  | some r =>
    if s.psc.stepState = .armed ∧ stepTrigger r = some trigger then buildDue (enterSettling s) else s

/-- Entry to READ_BEFORE: a register context for each running position, its read owed and placed (R42,
R106). -/
def enterReadBefore (s : State) : State :=
  forEach s.psc.running
    (fun p t => placeRead p (t.setReg p (some { read := .owed, r0 := none, r1 := none })))
    (setStepState .readBefore s)

/-- The second read of a running position becomes due (R111). -/
def ownSecondRead (p : Pos) (s : State) : State :=
  match s.reg p with
  | none => s
  | some c => placeRead p (s.setReg p (some { c with read := .owed, r1 := none }))

/-- Entry to READ_AFTER (R45, R111). -/
def enterReadAfter (s : State) : State :=
  forEach s.psc.running ownSecondRead
    { s with psc := { s.psc with stepState := .readAfter, timerUse := .none } }

/-- Entry to SETTLE_AFTER at the WINDOW_END of a REGISTER step; a settle of 0 ends at once (R45, R110). -/
def enterSettleAfter (r : StepRecord) (s : State) : State :=
  let t := startTimer .settle .ms 1 r.settle.toNat
    (setMonitor .disarmed (recordStepEvent .windowEnd (setStepState .settleAfter s)))
  if r.settle.toNat = 0 then enterReadAfter t else t

/-! ### End and start of a step (R42, R47, R48) -/

/-- The per-position work of a step is removed (R79, R100, R106). -/
def clearWork (s : State) : State :=
  { s with
    gates := Vector.replicate 12 none,
    psc := { s.psc with windows := Vector.replicate 12 none, regs := Vector.replicate 12 none } }

/-- The active step becomes the last step, in a state without an active step (R41, R47). -/
def retireStep (x : StepState) (s : State) : State :=
  { s with psc := { s.psc with stepState := x, last := s.psc.active, active := none, running := [] } }

/-- Entry to COMPLETE without the swap (R47). -/
def finishStep (s : State) : State :=
  recordStepEvent .complete (retireStep .complete (clearWork (setMonitor .disarmed (stopTimer s))))

/-- A step start (R42). -/
def startStep (r : StepRef) (s : State) : State :=
  let t := { s with psc := { s.psc with active := some r, running := s.eligibleSet } }
  if s.eligibleSet = [] then finishStep t
  else
    match t.activeKind with
    | none => finishStep t
    | some .register => enterReadBefore t
    | some _ => enterArmed t

/-- Completion: entry to COMPLETE, and the start of a queued step (R47). -/
def completeStep (s : State) : State :=
  match s.psc.queued with
  | none => finishStep s
  | some q => startStep q (finishStep { s with psc := { s.psc with queued := none } })

/-- The step completes when the running set is empty while it is active (R46). -/
def completeIfEmpty (s : State) : State :=
  if s.stepActive && s.psc.running.isEmpty then completeStep s else s

/-- The position waits for its reading (R106). -/
def waitsForRead (s : State) (p : Pos) : Bool :=
  match s.reg p with
  | none => false
  | some c => decide (c.read = .owed) || decide (c.read = .placed) || decide (c.read = .active)

/-- READ_BEFORE ends when no running position waits for its reading: the step arms (R108). -/
def armIfRead (s : State) : State :=
  if decide (s.psc.stepState = .readBefore) && !s.psc.running.any (waitsForRead s) then
    enterArmed (forEach s.psc.running (fun p t => setRead p .none t) s)
  else s

/-- What follows a verdict or a reading: completion, or the end of READ_BEFORE (R46, R108). -/
def afterVerdict (s : State) : State := armIfRead (completeIfEmpty s)

/-! ### Outcomes of register reads (R108, R111) -/

/-- A register context's read state and readings replaced. -/
def holdReading (p : Pos) (x : ReadState) (r0 r1 : Option Nat) (s : State) : State :=
  s.setReg p (some { read := x, r0 := r0, r1 := r1 })

/-- A REGISTER position's verdict, which leaves its context without a read (R106, R108, R111). -/
def registerVerdictActs (p : Pos) (e : Entry) (c : RegContext) (s : State) : State :=
  afterVerdict (giveVerdict p e (holdReading p .none c.r0 c.r1 s))

/-- The entry of a second reading (R111). -/
def registerEntry (r : StepRecord) (run : Word32) (r0 r1 : Nat) : Entry :=
  let e := registerErrorOf r r0 r1
  { verdict := registerVerdict r e.1, runId := run, saturated := e.2, nClamped := false,
    fields := .register (some r0) (some r1) (some e.1) }

/-- READING at the register logic (R108, R111). -/
def readingTaken (p : Pos) (v : Nat) (c : RegContext) (s : State) : State :=
  match s.psc.stepState, c.r0, s.activeRecord with
  | .readBefore, _, _ => armIfRead (holdReading p .taken (some v) c.r1 s)
  | .readAfter, some r0, some r =>
    registerVerdictActs p (registerEntry r s.activeRun r0 v) { c with r1 := some v } s
  | _, _, _ => s

/-- NO_REPLY or BAD_READING at the register logic: in READ_BEFORE no reading is held yet (R108, R111). -/
def readingFailed (p : Pos) (v : Verdict) (c : RegContext) (s : State) : State :=
  if s.readingPhase then
    registerVerdictActs p (plainEntry s.activeRun v (.register c.r0 none none)) c s
  else s

/-- The outcome of a REGISTER_READ transaction, taken only by an ACTIVE context: a value, or the verdict of
a failed read (R108). -/
def readOutcome (p : Pos) (o : Verdict ⊕ Nat) (s : State) : State :=
  match s.reg p with
  | none => s
  | some c =>
    if c.read = .active then
      match o with
      | .inl v => readingFailed p v c s
      | .inr v => readingTaken p v c s
    else s

/-! ### Requests whose template is empty (R136, R142) -/

/-- BAD_READING for a request whose template was empty at its start. -/
def emptyOutcome (p : Pos) (q : TemplateRequest) (s : State) : State :=
  match q with
  | .identify => identifyOutcome p .badReading none s
  | .registerRead _ => readOutcome p (.inl .badReading) s

/-- A request whose template is empty starts and ends at once with BAD_READING, and the channel, still
IDLE, goes on to its next request (R136, R142). -/
def endEmpty (p : Pos) (q : TemplateRequest) (s : State) : State :=
  tryStart p (emptyOutcome p q
    (placeOwed p (startedRead p q (s.setChan p { s.chan p with internal := none }))))

/-- The first position whose channel is IDLE with an empty template's request. -/
def nextEmpty (s : State) : Option Pos := allPos.find? (fun p => (emptyRequest s p).isSome)

/-- One request with an empty template ended, if there is one. -/
def endOneEmpty (s : State) : State :=
  match nextEmpty s with
  | none => s
  | some p =>
    match emptyRequest s p with
    | none => s
    | some q => endEmpty p q s

/-- Every request with an empty template is ended on the event that gave it its channel (R142). Each round
ends one request; on one event a channel can be given its waiting request, an owed read, and the read of a
queued step that the event starts, so 64 rounds end them all. -/
def quiesce (s : State) : State := (List.range 64).foldl (fun t _ => endOneEmpty t) s

/-- What ends an event: the requests with an empty template, and then the reports that are due (R142, R190). -/
def settle (s : State) : State := buildDue (quiesce s)

/-- The abort of an active step (R48, first part): verdicts, gates, timer, monitor, reads, the event. The
channels it leaves IDLE start their next requests where the command says so. -/
def abortStep (s : State) : State :=
  if s.stepActive then
    let verdicts := forEach s.psc.running (fun p t => giveVerdict p (cutEntry .aborted p t) t) s
    let reads := forEach allPos endRead verdicts
    recordStepEvent .aborted (retireStep .idle (clearWork (setMonitor .disarmed (stopTimer reads))))
  else s

/-- Every IDLE channel starts what it can (R142). -/
def startChannels (s : State) : State := forEach allPos tryStart s

/-- The work held for an excluded position ends (R52, R77, R104, R113). -/
def dropWork (p : Pos) (s : State) : State :=
  let t := if s.readingPhase && (s.reg p).isSome then endRead p s else s
  ((t.setGate p none).setWindow p none).setReg p none

/-- An exclusion (R52): the verdict and the end of the position's work, then what its channel starts on being freed
(R142, R144), then the completion of the step if it was the last (R46). -/
def exclude (p : Pos) (s : State) : State :=
  if s.isRunning p then
    quiesce (afterVerdict (quiesce (tryStart p (dropWork p (giveVerdict p (cutEntry .aborted p s) s)))))
  else s

/-! ### Expiries (R45) -/

/-- The match is reached: the expiry of the current use is raised (R13). -/
def raiseExpiry (s : State) : State :=
  { s with
    piu := { s.piu with timer := s.piu.timer.reach },
    psc := { s.psc with raised := s.psc.raised ++ [(s.psc.timerUse, s.psc.useNo)] } }

/-- The taking of an expiry of a use, and whether the PSC acts on it: an expiry raised for the current use
is acted on, one raised for an earlier use is dropped, and where none was raised a timer counting that use
reaches its match now (R45; assumption 11). -/
def takeExpiry (use : TimerUse) (s : State) : Bool × State :=
  if s.psc.timerUse = use ∧ (use, s.psc.useNo) ∈ s.psc.raised then
    (true, { s with psc := { s.psc with raised := s.psc.raised.erase (use, s.psc.useNo) } })
  else
    match s.psc.raised.find? (fun e => decide (e.1 = use)) with
    | some e => (false, { s with psc := { s.psc with raised := s.psc.raised.erase e } })
    | none =>
      if s.psc.timerUse = use ∧ s.piu.timer.counting then
        (true, { s with piu := { s.piu with timer := s.piu.timer.reach } })
      else (false, s)

/-! ### Meanings -/

/-- TRIGGER_DELAY_EXPIRY (R44, R45). -/
def triggerDelayExpiry (s : State) : State :=
  let t := takeExpiry .triggerDelay s
  if t.1 ∧ t.2.psc.stepState = .settling then buildDue (enterRunning t.2) else t.2

/-- The verdict WINDOW_END gives an undecided position (R94, R95, R102). -/
def windowEndVerdict (p : Pos) (s : State) : State :=
  match s.activeKind with
  | some .creep => giveVerdict p (plainEntry s.activeRun .pass (.creep (windowCount (s.window p)))) s
  | some .start => giveVerdict p (plainEntry s.activeRun .fail (.start none)) s
  | _ => s

/-- WINDOW_END acted on in RUNNING (R45, R102, R110). -/
def windowEndActs (s : State) : State :=
  match s.activeRecord with
  | none => s
  | some r =>
    match stepKind r with
    | some .register => enterSettleAfter r s
    | _ => completeIfEmpty (forEach s.psc.running windowEndVerdict s)

/-- WINDOW_END (R45). -/
def windowEnd (s : State) : State :=
  let t := takeExpiry .window s
  if t.1 ∧ t.2.psc.stepState = .running then settle (windowEndActs t.2) else t.2

/-- SETTLE_EXPIRY (R45, R111). -/
def settleExpiry (s : State) : State :=
  let t := takeExpiry .settle s
  if t.1 ∧ t.2.psc.stepState = .settleAfter then settle (enterReadAfter t.2) else t.2

/-- The REF_LOST event at the PSC: every running position of a RUNNING ERROR or REGISTER step ends with
REF_LOST and the step completes (R53). -/
def refLostActs (s : State) : State :=
  if s.psc.stepState = .running ∧ (s.activeKind = some .error ∨ s.activeKind = some .register) then
    quiesce
      (completeIfEmpty (stopTimer (forEach s.psc.running (fun p t => giveVerdict p (cutEntry .refLost p t) t) s)))
  else s

/-- The judging of a step command's slot: a number in range whose slot is not EMPTY (R48, R49). -/
def stepTarget (slot : Byte) (s : State) : Option (Fin 32) :=
  match stepSlotOf slot with
  | none => none
  | some n => if s.psc.plan[n.val].isSome then some n else none

/-- The queue emptied. -/
def emptyQueue (s : State) : State := { s with psc := { s.psc with queued := none } }

/-- The first part of a STEP_RUN or STEP_ABORT: an active step is aborted, and the channels it leaves IDLE have
started what they can, requests with an empty template ended, before the parts that follow (R48, R50, R142). -/
def abortFirst (s : State) : State := if s.stepActive then quiesce (startChannels (abortStep s)) else s

/-- STEP_RUN at its owner (R48). -/
def stepRunActs (slot : Byte) (run : Word32) (s : State) : State × Reply :=
  match stepTarget slot s with
  | none => refuse .badArg s
  | some n =>
    accept [] (settle (startStep { slot := n, run := run } (emptyQueue (abortFirst s))))

/-- STEP_QUEUE at its owner (R49). -/
def stepQueueActs (slot : Byte) (run : Word32) (s : State) : State × Reply :=
  match stepTarget slot s with
  | none => refuse .badArg s
  | some n =>
    if s.stepActive then
      accept [] { s with psc := { s.psc with queued := some { slot := n, run := run } } }
    else accept [] (settle (startStep { slot := n, run := run } s))

/-- STEP_ABORT at its owner (R50). -/
def stepAbortActs (s : State) : State × Reply :=
  if s.stepActive then accept [] (buildDue (emptyQueue (abortFirst s)))
  else if s.psc.stepState = .complete then accept [] (setStepState .idle s)
  else accept [] s

/-- The slot holds the active step or the queued step (R38, R40). -/
def slotProtected (n : Fin 32) (s : State) : Bool :=
  (s.psc.active.any fun r => decide (r.slot = n)) || (s.psc.queued.any fun r => decide (r.slot = n))

/-- The step table with a slot written or emptied. -/
def setPlan (n : Fin 32) (r : Option StepRecord) (s : State) : State :=
  { s with psc := { s.psc with plan := s.psc.plan.set n.val r } }

/-- PLAN_WRITE at its owner (R38, R39). -/
def planWriteActs (slot : Byte) (r : StepRecord) (s : State) : State × Reply :=
  match stepSlotOf slot, stepKind r with
  | some n, some k =>
    if slotProtected n s then refuse .badState s
    else if stepFieldsOk r k then accept (planBytes (setPlan n (some r) s) n) (setPlan n (some r) s)
    else refuse .badArg s
  | _, _ => refuse .badArg s

/-- PLAN_READ at its owner (R40). -/
def planReadActs (slot : Byte) (s : State) : State × Reply :=
  match stepSlotOf slot with
  | none => refuse .badArg s
  | some n => accept (planBytes s n) s

/-- PLAN_CLEAR at its owner (R40). That the step record of its OK answer is the EMPTY one, as it stands after the clear, is
the model's choice (DESIGN CHOICE, assumption 37). -/
def planClearActs (slot : Byte) (s : State) : State × Reply :=
  match stepSlotOf slot with
  | none => refuse .badArg s
  | some n =>
    if slotProtected n s then refuse .badState s
    else accept (planBytes (setPlan n none s) n) (setPlan n none s)

/-- TRIGGER_DELAY_EXPIRY. -/
def execTriggerDelayExpiry (s : State) : Host.Outcome State Fault Refusal := .next (triggerDelayExpiry s)

/-- WINDOW_END. -/
def execWindowEnd (s : State) : Host.Outcome State Fault Refusal := .next (windowEnd s)

/-- SETTLE_EXPIRY. -/
def execSettleExpiry (s : State) : Host.Outcome State Fault Refusal := .next (settleExpiry s)

/-- STEP_RUN, addressed or broadcast (R48, R51). -/
def execStepRun (via : Via) (slot : Byte) (run : Word32) (s : State) : Host.Outcome State Fault Refusal :=
  .next (takeVia via (stepRunActs slot run) s)

/-- STEP_QUEUE, addressed or broadcast (R49, R51). -/
def execStepQueue (via : Via) (slot : Byte) (run : Word32) (s : State) : Host.Outcome State Fault Refusal :=
  .next (takeVia via (stepQueueActs slot run) s)

/-- STEP_ABORT, addressed or broadcast (R50, R51). -/
def execStepAbort (via : Via) (s : State) : Host.Outcome State Fault Refusal :=
  .next (takeVia via stepAbortActs s)

/-- PLAN_WRITE (R38). -/
def execPlanWrite (tag slot : Byte) (r : StepRecord) (s : State) : Host.Outcome State Fault Refusal :=
  .next (takeCommand tag (planWriteActs slot r) s)

/-- PLAN_READ (R40). -/
def execPlanRead (tag slot : Byte) (s : State) : Host.Outcome State Fault Refusal :=
  .next (takeCommand tag (planReadActs slot) s)

/-- PLAN_CLEAR (R40). -/
def execPlanClear (tag slot : Byte) (s : State) : Host.Outcome State Fault Refusal :=
  .next (takeCommand tag (planClearActs slot) s)

end Sys2Proof.Machine
end

