-- ==== Sys2Proof/Machine/Gates.lean ====
section
/-! DEFINITION. The Gate Engine (chapter 4) and the window logic's side of an accepted edge (6.1). -/

namespace Sys2Proof.Machine

/-- The gate reject tally of a position set to 0 (R6). -/
def clearTally (p : Pos) (s : State) : State := s.setLine p { s.line p with tally := 0 }

/-- A gate context after the opening act, on an edge of the millisecond count `now` (R59). -/
def GateContext.opening (r : StepRecord) (cmut : Nat) (now : Word32) (g : GateContext) : GateContext :=
  let n := gateLength r cmut
  { g with
    state := .opened, index := g.index + 1,
    latch := some { n := n.1, cref := r.cref.toNat, cmut := cmut, nClamped := n.2 },
    count := 0, m := 0, overrange := false, nClamped := g.nClamped || n.2, timeoutStart := now }

/-- The opening of a gate, which clears the tally (R59). -/
def openGate (p : Pos) (r : StepRecord) (g : GateContext) (s : State) : State :=
  clearTally p (s.setGate p (some (g.opening r (recordCmut (s.pos p)) s.piu.millis)))

/-- The gate error of a closing gate with its SATURATED flag; absent with m = 0 or OVERRANGE (R63). -/
def closeError (l : GateLatch) (g : GateContext) : Option (Int × Bool) :=
  if g.m = 0 ∨ g.overrange then none else some (gateError l.n l.cref g.m l.cmut)

/-- The outcome of a closed gate (R65). -/
def closeOutcome (r : StepRecord) (tally : Nat) (g : GateContext) : GateOutcome :=
  if g.discards < r.warmUp.toNat then .discarded
  else if g.overrange then .overrange
  else if g.m = 0 then .zeroRef
  else if r.noise.toNat < tally then .noisy
  else .accepted

/-- Error min and max with one more accepted error (R69). -/
def widenBounds (e : Int) : Option (Int × Int) → Option (Int × Int)
  | none => some (e, e)
  | some b => some (min e b.1, max e b.2)

/-- The effect of an ACCEPTED gate of error `e` (R69). -/
def GateContext.acceptGate (e : Int × Bool) (g : GateContext) : GateContext :=
  { g with
    attempts := g.attempts + 1, accepted := g.accepted + 1, errorSum := g.errorSum + e.1,
    bounds := widenBounds e.1 g.bounds, saturated := g.saturated || e.2 }

/-- The effect of a closed gate's outcome on the counts (R66 to R69). -/
def GateContext.applyOutcome (o : GateOutcome) (e : Option (Int × Bool)) (g : GateContext) : GateContext :=
  match o, e with
  | .discarded, _ => { g with discards := g.discards + 1 }
  | .accepted, some e => g.acceptGate e
  | _, _ => { g with attempts := g.attempts + 1 }

/-- The gate SATURATED flag (R63). -/
def gateSaturated : Option (Int × Bool) → Bool
  | none => false
  | some e => e.2

/-- The latest gate result record of a closed gate (R74). -/
def gateResultOf (o : GateOutcome) (l : GateLatch) (e : Option (Int × Bool)) (tally : Nat) (g : GateContext) :
    GateResult :=
  { index := g.index, outcome := o, error := e.map Prod.fst, n := l.n, m := g.m, tally := tally,
    saturated := gateSaturated e, nClamped := l.nClamped, overrange := g.overrange }

/-- The verdict of the accepted gates' statistics, where there are any (R87 to R89). -/
def statisticsVerdict (r : StepRecord) (g : GateContext) : Option Verdict :=
  match stepStatistics g.errorSum g.bounds g.accepted with
  | none => none
  | some st => some (errorVerdict r st.1 st.2)

/-- The ending check: the verdict that ends the measurement, or none when it goes on (R70). -/
def endingVerdict (r : StepRecord) (o : GateOutcome) (g : GateContext) : Option Verdict :=
  if o = .overrange then some .overrange
  else if g.accepted = r.gates.toNat then statisticsVerdict r g
  else if g.accepted + r.extra.toNat < g.attempts then some .noisy
  else none

/-- The latest gate result replaced, and its mark (R74, R75). -/
def replaceGateResult (p : Pos) (x : GateResult) (s : State) : State :=
  markGateResult p (s.setPos p { s.pos p with latestGate := some x })

/-- The measurement of a position ends with a verdict of the Gate Engine (R71, R46). -/
def endGates (p : Pos) (v : Verdict) (g : GateContext) (s : State) : State :=
  afterVerdict (giveVerdict p (errorEntry s.activeRun v g) (s.setGate p (some { g with state := .done })))

/-- The closing act (R63). -/
def closeGate (p : Pos) (r : StepRecord) (l : GateLatch) (g : GateContext) (s : State) : State :=
  let tally := (s.line p).tally
  let e := closeError l g
  let o := closeOutcome r tally g
  let g' := g.applyOutcome o e
  let t := replaceGateResult p (gateResultOf o l e tally g) s
  match endingVerdict r o g' with
  | none => openGate p r g' t
  | some v => endGates p v g' t

/-- An accepted edge in an OPEN gate (R61). -/
def countGate (p : Pos) (r : StepRecord) (g : GateContext) (s : State) : State :=
  match g.latch with
  | none => s
  | some l =>
    if l.n ≤ g.count + 1 then closeGate p r l { g with count := g.count + 1 } s
    else s.setGate p (some { g with count := g.count + 1 })

/-- An accepted edge at a gate context (R60, R61). -/
def gateEdge (p : Pos) (g : GateContext) (s : State) : State :=
  match s.activeRecord with
  | none => s
  | some r =>
    match g.state with
    | .seek => openGate p r g s
    | .opened => countGate p r g s
    | .done => s

/-- A record decided early, with its verdict (R101). -/
def decideWindow (p : Pos) (w : WindowRecord) (e : Entry) (s : State) : State :=
  completeIfEmpty (giveVerdict p e (s.setWindow p (some { w with decided := true })))

/-- An accepted edge of a CREEP position (R94, R101). -/
def creepEdge (p : Pos) (r : StepRecord) (w : WindowRecord) (s : State) : State :=
  let w' := { w with count := w.count + 1 }
  if r.allowance.toNat < w'.count then
    decideWindow p w' (plainEntry s.activeRun .fail (.creep w'.count)) s
  else s.setWindow p (some w')

/-- An accepted edge of a START position (R95, R101). -/
def startEdge (p : Pos) (w : WindowRecord) (s : State) : State :=
  decideWindow p { w with waiting := false }
    (plainEntry s.activeRun .pass (.start (some (firstPulseTime s.piu.millis s.psc.windowStart)))) s

/-- An accepted edge at the window logic (R101). -/
def windowEdge (p : Pos) (w : WindowRecord) (s : State) : State :=
  if w.decided ∨ s.psc.stepState ≠ .running then s
  else
    match s.activeRecord with
    | none => s
    | some r =>
      match stepKind r with
      | some .creep => creepEdge p r w s
      | some .start => startEdge p w s
      | _ => s

/-- An accepted edge at its owners. At most one of them holds something for it, and which one is judged in
the state the edge finds (R7). -/
def handEdge (p : Pos) (s : State) : State :=
  match s.gate p, s.window p with
  | some g, _ => gateEdge p g s
  | none, some w => windowEdge p w s
  | none, none => s

/-- A candidate edge, accepted or rejected by the dead time (R5, R6). -/
def takeCandidate (p : Pos) (s : State) : State :=
  if (s.line p).lastAccepted.any (fun t => decide (s.piu.micros < t + (s.pos p).line.deadTime)) then
    s.setLine p { s.line p with tally := rejectUp (s.line p).tally }
  else settle (handEdge p (s.setLine p { s.line p with lastAccepted := some s.piu.micros }))

/-- One more counted reference edge in an OPEN gate (R9). -/
def GateContext.countRef (g : GateContext) : GateContext :=
  match g.state with
  | .opened =>
    if g.m < Config.countLimit then { g with m := g.m + 1 } else { g with overrange := true }
  | _ => g

/-- The gate timeout expires in SEEK or OPEN: NO_PULSE (R72). -/
def gateTimeout (p : Pos) (s : State) : State :=
  match s.gate p with
  | none => s
  | some g => if g.state = .done then s else settle (endGates p .noPulse g s)

/-- GATE_TIMEOUT (R72). -/
def execGateTimeout (p : Pos) (s : State) : Host.Outcome State Fault Refusal := .next (gateTimeout p s)

end Sys2Proof.Machine
end

