-- ==== Sys2Proof/Machine/Pulse.lean ====
section
/-! DEFINITION. The Pulse Input Unit (chapter 1): meter lines, reference counting, presence monitor, window
timer advance, and the control lines. -/

namespace Sys2Proof.Machine

/-! ### Meter lines -/

/-- The value two of three samples have (R2). -/
def majority (a b c : Bool) : Bool := (a && b) || (a && c) || (b && c)

/-- A new sample in the history, and the filtered value it gives (R2). -/
def Line.shift (filterOn v : Bool) (l : Line) : Line :=
  { l with
    oldest := l.middle, middle := l.newest, newest := v,
    filtered := if filterOn then majority l.middle l.newest v else v }

/-- A line sampled at a level until its filtered value is that level, which takes two samples at most
(R2). -/
def Line.settle (filterOn v : Bool) (l : Line) : Line :=
  if l.filtered = v then l
  else if (l.shift filterOn v).filtered = v then l.shift filterOn v
  else (l.shift filterOn v).shift filterOn v

/-- A transition of a line to a sample value: the line passes through the other level if it is not there
already (assumption 12). -/
def Line.transition (set : LineSettings) (v : Bool) (l : Line) : Line :=
  { (l.settle set.filterOn (!v)).settle set.filterOn v with level := v ^^ set.inverted }

/-- The filtered value after a transition the edge select picks (R4). -/
def pickedLevel (e : EdgeSelect) (filtered : Bool) : Bool :=
  match e with
  | .rising => true
  | .falling => false
  | .both => !filtered

/-- A transition that the edge select picks: a candidate edge (R4, R5). -/
def candidateEdge (p : Pos) (s : State) : State :=
  let set := (s.pos p).line
  takeCandidate p
    (s.setLine p ((s.line p).transition set (pickedLevel set.edge (s.line p).filtered)))

/-- A transition that the edge select does not pick: no candidate (R4). With BOTH there is none. -/
def unselectedTransition (p : Pos) (s : State) : State :=
  let set := (s.pos p).line
  match set.edge with
  | .both => s
  | e => s.setLine p ((s.line p).transition set (!pickedLevel e (s.line p).filtered))

/-- A meter line reloaded from its pin, with the polarity given (R3). -/
def Line.reload (inverted : Bool) (l : Line) : Line := Line.loaded l.level (l.level ^^ inverted)

/-- The meter line of a position reloaded with the polarity its record now has (R3). -/
def reloadLine (p : Pos) (s : State) : State :=
  s.setLine p ((s.line p).reload (s.pos p).line.inverted)

/-! ### Reference -/

/-- The direction of REF_IN that is counted (R8). -/
def State.countedEdge (s : State) : RefEdge :=
  match s.activeRecord with
  | none => .rising
  | some r =>
    match stepKind r with
    | some .error => stepRefEdge r
    | some .register => stepRefEdge r
    | _ => .rising

/-- Every OPEN gate counts a reference edge (R9). -/
def countInGates (s : State) : State :=
  { s with gates := s.gates.map (fun g => g.map GateContext.countRef) }

/-- The count of a COUNTING timer advances by 1; at the match the expiry is raised (R13). -/
def advanceTimer (s : State) : State :=
  if s.piu.timer.count + 1 < s.piu.timer.matchValue then
    { s with piu := { s.piu with timer := { s.piu.timer with count := s.piu.timer.count + 1, remainder := 0 } } }
  else raiseExpiry s

/-- The window timer takes a counted reference edge (R13). -/
def countInTimer (s : State) : State :=
  if s.piu.timer.counting ∧ s.piu.timer.clock = .refK then
    if s.piu.timer.remainder + 1 < s.piu.timer.divisor then
      { s with piu := { s.piu with timer := { s.piu.timer with remainder := s.piu.timer.remainder + 1 } } }
    else advanceTimer s
  else s

/-- The presence monitor takes a counted reference edge (R11). -/
def countInMonitor (s : State) : State :=
  match s.piu.monitor with
  | .disarmed => s
  | .armed _ => setMonitor (.armed 0) s

/-- A counted reference edge (R8). -/
def countReference (s : State) : State := countInMonitor (countInTimer (countInGates s))

/-- A change of REF_IN, a time in ns after the last counted edge (R8). -/
def referenceEdge (edge : RefEdge) (gapNs : Nat) (s : State) : State :=
  if edge = s.countedEdge ∧ 50 ≤ gapNs then countReference s else s

/-- The quiet time reaches its limit: the armed monitor disarms, marks and raises REF_LOST (R11, R53). -/
def refLost (s : State) : State :=
  match s.piu.monitor with
  | .disarmed => s
  | .armed _ => buildDue (refLostActs (markRefLost (setMonitor .disarmed s)))

/-! ### Control lines -/

/-- The previous sample of SYNC_IN. -/
def setSync (v : Bool) (s : State) : State := { s with piu := { s.piu with sync := v } }

/-- The previous sample of SOURCE_READY. -/
def setSource (v : Bool) (s : State) : State := { s with piu := { s.piu with source := v } }

/-- SYNC_IN goes high: an edge only after a low sample (R16). -/
def syncEdge (s : State) : State := if s.piu.sync then s else takeTrigger .syncEdge (setSync true s)

/-- SOURCE_READY goes high: an assertion only after a low sample (R17). -/
def sourceReadyAssertion (s : State) : State :=
  if s.piu.source then s else takeTrigger .sourceReady (setSource true s)

/-! ### Meanings -/

/-- CANDIDATE_EDGE (R4 to R7). -/
def execCandidateEdge (p : Pos) (s : State) : Host.Outcome State Fault Refusal := .next (candidateEdge p s)

/-- UNSELECTED_TRANSITION (R4). -/
def execUnselectedTransition (p : Pos) (s : State) : Host.Outcome State Fault Refusal :=
  .next (unselectedTransition p s)

/-- REFERENCE_EDGE (R8). -/
def execReferenceEdge (edge : RefEdge) (gapNs : Nat) (s : State) : Host.Outcome State Fault Refusal :=
  .next (referenceEdge edge gapNs s)

/-- REF_LOST (R11). -/
def execRefLost (s : State) : Host.Outcome State Fault Refusal := .next (refLost s)

/-- SYNC_EDGE (R16). -/
def execSyncEdge (s : State) : Host.Outcome State Fault Refusal := .next (syncEdge s)

/-- SYNC_IN_FALL: recorded as the previous sample, and handed to nobody (R16). -/
def execSyncInFall (s : State) : Host.Outcome State Fault Refusal := .next (setSync false s)

/-- SOURCE_READY_ASSERTION (R17). -/
def execSourceReadyAssertion (s : State) : Host.Outcome State Fault Refusal := .next (sourceReadyAssertion s)

/-- SOURCE_READY_FALL: recorded as the level, and handed to nobody (R17). -/
def execSourceReadyFall (s : State) : Host.Outcome State Fault Refusal := .next (setSource false s)

end Sys2Proof.Machine
end

