-- ==== Sys2Proof/Machine/Positions.lean ====
section
/-! DEFINITION. The Position Table's commands (chapter 2), the module settings (R125, R188), and the reads of
positions and results (R35). -/

namespace Sys2Proof.Machine

/-! ### POSITION_LOAD (R22 to R24) -/

/-- The record after a load taken for an EMPTY position (R23). -/
def loadedFresh (set : LineSettings) (r : LoadRecord) : PositionRecord :=
  { PositionRecord.cleared with
    state := .loaded, included := true, line := set, meter := some (loadMeter r),
    gain := (loadGain r).getD 0, phase := (loadPhase r).getD 0 }

/-- The record after a load taken for a LOADED, TRIMMED or VERIFIED position (R24). -/
def loadedAgain (set : LineSettings) (r : LoadRecord) (old : PositionRecord) : PositionRecord :=
  { old with
    included := true, line := set, meter := some (loadMeter r), gain := (loadGain r).getD old.gain,
    phase := (loadPhase r).getD old.phase, correction := none, outOfTrim := false }

/-- The refusal of a load of a position, if one applies (R22, second to fourth condition). -/
def loadRefusal (p : Pos) (r : LoadRecord) (s : State) : Option Status :=
  if (s.pos p).state = .sealed ∨ (s.pos p).state = .sealing ∨ (s.pos p).inFlight = .trim then some .badState
  else if s.isRunning p then some .badState
  else if (s.pos p).state ≠ .empty ∧
      (keptOutside r.gainWidth (loadGain r) (s.pos p).gain ∨
        keptOutside r.phaseWidth (loadPhase r) (s.pos p).phase) then some .badArg
  else none

/-- A taken load (R23, R24, R3). A load from EMPTY makes the last identify outcome absent (R146). -/
def loadPosition (p : Pos) (set : LineSettings) (r : LoadRecord) (s : State) : State :=
  if (s.pos p).state = .empty then reloadLine p ((s.setPos p (loadedFresh set r)).setIdentified p none)
  else reloadLine p (s.setPos p (loadedAgain set r (s.pos p)))

/-- An OK answer with the record of a position as it stands after the command (11.7). -/
def acceptRecord (p : Pos) (s : State) : State × Reply := accept (positionBytes s p) s

/-- POSITION_LOAD at its owner (R22). -/
def positionLoadActs (r : LoadRecord) (s : State) : State × Reply :=
  match posOf r.position.toNat, lineSettingsOf r.line r.deadTime with
  | some p, some set =>
    if !loadFieldsOk r then refuse .badArg s
    else
      match loadRefusal p r s with
      | some st => refuse st s
      | none => acceptRecord p (loadPosition p set r s)
  | _, _ => refuse .badArg s

/-! ### POSITION_CLEAR and POSITION_INCLUDE (R25, R26) -/

/-- The waiting IDENTIFY request of a position. -/
def isIdentifyRequest : Option TemplateRequest → Bool
  | some .identify => true
  | _ => false

/-- The IDENTIFY work of a position ended: its waiting request withdrawn and its transaction cut (R144). -/
def cutIdentify (p : Pos) (s : State) : State :=
  let c := s.chan p
  let c := if isIdentifyRequest c.internal then { c with internal := none } else c
  s.setChan p (if isIdentifyTransaction c.transaction then c.cut else c)

/-- The position has IDENTIFY work, waiting or in progress. -/
def hasIdentify (p : Pos) (s : State) : Bool :=
  isIdentifyRequest (s.chan p).internal || isIdentifyTransaction (s.chan p).transaction

/-- IDENTIFY work ends with ABORTED, where there is any (R144, R146). -/
def abortIdentify (p : Pos) (s : State) : State :=
  if hasIdentify p s then identifyOutcome p .aborted none (cutIdentify p s) else s

/-- The included field of a position set. -/
def setIncluded (p : Pos) (b : Bool) (s : State) : State := s.setPos p { s.pos p with included := b }

/-- A taken clear (R25). A queued step that its exclusion starts does not take the position, which is on its
way to EMPTY (R20; assumption 30). The spec gives no order between the withdrawal of the position's waiting IDENTIFY
request and the exclusion that may free its channel: here the exclusion comes first, so that the freed channel
starts the request before it is ended, and with an empty template ends it with BAD_READING (DESIGN CHOICE,
assumption 33). -/
def clearPosition (p : Pos) (s : State) : State :=
  settle (tryStart p (reloadLine p ((abortIdentify p (exclude p (setIncluded p false s))).setPos p .cleared)))

/-- POSITION_CLEAR at its owner (R25). -/
def positionClearActs (position : Byte) (s : State) : State × Reply :=
  match posOf position.toNat with
  | none => refuse .badArg s
  | some p =>
    if (s.pos p).state = .sealing ∨ (s.pos p).inFlight ≠ .none then refuse .badState s
    else if (s.pos p).state = .empty then acceptRecord p s
    else acceptRecord p (clearPosition p s)

/-- POSITION_INCLUDE with the choice on, at its owner (R26). -/
def includeOnActs (position : Byte) (s : State) : State × Reply :=
  match posOf position.toNat with
  | none => refuse .badArg s
  | some p =>
    if (s.pos p).state = .empty then refuse .badState s else acceptRecord p (setIncluded p true s)

/-- A position turned off, and excluded if it is running (R26). -/
def excludePosition (p : Pos) (s : State) : State :=
  if s.isRunning p then buildDue (exclude p (setIncluded p false s)) else setIncluded p false s

/-- POSITION_INCLUDE with the choice off, at its owner (R26). -/
def includeOffActs (position : Byte) (s : State) : State × Reply :=
  match posOf position.toNat with
  | none => refuse .badArg s
  | some p =>
    if (s.pos p).state = .empty then refuse .badState s
    else acceptRecord p (excludePosition p s)

/-! ### Reads (R35) -/

/-- POSITION_READ at its owner (R35). -/
def positionReadActs (position : Byte) (s : State) : State × Reply :=
  match posOf position.toNat with
  | none => refuse .badArg s
  | some p => acceptRecord p s

/-- RESULT_READ at its owner (R35). -/
def resultReadActs (position stepNo : Byte) (s : State) : State × Reply :=
  match posOf position.toNat, stepSlotOf stepNo with
  | some p, some n => accept (resultBytes s p n) s
  | _, _ => refuse .badArg s

/-! ### Settings (R125, R188) -/

/-- Both settings replaced. -/
def setSettings (limit : Nat) (reports : Bool) (s : State) : State :=
  { s with pt := { s.pt with trimLimit := limit, gateReports := reports } }

/-- SETTINGS_WRITE at its owner (R188). -/
def settingsWriteActs (limit reports : Byte) (s : State) : State × Reply :=
  match boolOf reports with
  | none => refuse .badArg s
  | some b =>
    if inRange 1 7 limit.toNat then
      accept (settingsBytes (setSettings limit.toNat b s)) (setSettings limit.toNat b s)
    else refuse .badArg s

/-- SETTINGS_READ at its owner (R188). -/
def settingsReadActs (s : State) : State × Reply := accept (settingsBytes s) s

/-! ### Meanings -/

/-- POSITION_LOAD (R22). -/
def execPositionLoad (tag : Byte) (r : LoadRecord) (s : State) : Host.Outcome State Fault Refusal :=
  .next (takeCommand tag (positionLoadActs r) s)

/-- POSITION_CLEAR (R25). -/
def execPositionClear (tag position : Byte) (s : State) : Host.Outcome State Fault Refusal :=
  .next (takeCommand tag (positionClearActs position) s)

/-- POSITION_INCLUDE on (R26). -/
def execPositionIncludeOn (tag position : Byte) (s : State) : Host.Outcome State Fault Refusal :=
  .next (takeCommand tag (includeOnActs position) s)

/-- POSITION_INCLUDE off (R26). -/
def execPositionIncludeOff (tag position : Byte) (s : State) : Host.Outcome State Fault Refusal :=
  .next (takeCommand tag (includeOffActs position) s)

/-- POSITION_READ (R35). -/
def execPositionRead (tag position : Byte) (s : State) : Host.Outcome State Fault Refusal :=
  .next (takeCommand tag (positionReadActs position) s)

/-- RESULT_READ (R35). -/
def execResultRead (tag position stepNo : Byte) (s : State) : Host.Outcome State Fault Refusal :=
  .next (takeCommand tag (resultReadActs position stepNo) s)

/-- SETTINGS_WRITE (R125, R188). -/
def execSettingsWrite (tag limit reports : Byte) (s : State) : Host.Outcome State Fault Refusal :=
  .next (takeCommand tag (settingsWriteActs limit reports) s)

/-- SETTINGS_READ (R188). -/
def execSettingsRead (tag : Byte) (s : State) : Host.Outcome State Fault Refusal :=
  .next (takeCommand tag settingsReadActs s)

end Sys2Proof.Machine
end

