-- ==== Sys2Proof/Machine/Corrections.lean ====
section
/-! DEFINITION. CORRECTION_COMPUTE and VERIFY_EVALUATE (chapter 7). -/

namespace Sys2Proof.Machine

/-- A position takes part in a computation or an evaluation: LOADED or TRIMMED with no write in flight (R118,
R128). -/
def takesPart (r : PositionRecord) : Bool :=
  (decide (r.state = .loaded) || decide (r.state = .trimmed)) && decide (r.inFlight = .none)

/-- The step numbers in ascending order. -/
def allSteps : List (Fin 32) := List.finRange 32

/-! ### CORRECTION_COMPUTE (R117 to R123) -/

/-- The mean error an entry of an ERROR step holds, whatever its verdict. -/
def entryMean : EntryFields → Option Int
  | .error _ _ _ stats => stats.map Prod.fst
  | _ => none

/-- The verdicts of a usable entry (R119). -/
def usableVerdict : Verdict → Bool
  | .pass => true
  | .fail => true
  | .unstable => true
  | _ => false

/-- The mean of a usable entry (R119). -/
def usableMean (e : Option Entry) : Option Int :=
  match e with
  | none => none
  | some e => if usableVerdict e.verdict then entryMean e.fields else none

/-- Step A, and step B with its tangent when it is carried. -/
abbrev CorrectionSteps := Fin 32 × Option (Fin 32 × Int)

/-- The phase target, when step B is carried and its entry is usable (R121). -/
def phaseTargetOf (r : PositionRecord) (m : MeterConstants) (eA : Int) (b : Fin 32 × Int) : Option Int :=
  (usableMean r.results[b.1.val]).map (fun eB => phaseTarget r.phase eA eB b.2 m.phaseUnit)

/-- The targets of a position, or the number of the step whose entry is not usable (R119 to R121). -/
def correctionTargets (r : PositionRecord) (m : MeterConstants) (c : CorrectionSteps) :
    Fin 32 ⊕ (Int × Option Int) :=
  match usableMean r.results[c.1.val], c.2 with
  | none, _ => .inl c.1
  | some eA, none => .inr (gainTarget r.gain eA m.gainUnit, none)
  | some eA, some b =>
    match phaseTargetOf r m eA b with
    | none => .inl b.1
    | some phase => .inr (gainTarget r.gain eA m.gainUnit, some phase)

/-- Every formed target lies within its range (R122). -/
def targetsFit (m : MeterConstants) (t : Int × Option Int) : Bool :=
  inWidth m.gainWidth t.1 && t.2.all (fun w => inWidth m.phaseWidth w)

/-- The record after a computation (R119, R122). -/
def correctedRecord (m : MeterConstants) (t : Fin 32 ⊕ (Int × Option Int)) (r : PositionRecord) :
    PositionRecord :=
  match t with
  | .inl _ => { r with correction := none, outOfTrim := false }
  | .inr t =>
    if targetsFit m t then
      { r with correction := some { gain := t.1, phase := t.2 }, outOfTrim := false }
    else { r with correction := none, outOfTrim := true }

/-- The computation for one position: a SKIPPED one is not changed (R118). -/
def computeCorrection (c : CorrectionSteps) (r : PositionRecord) : PositionRecord :=
  match r.meter with
  | none => r
  | some m => if takesPart r then correctedRecord m (correctionTargets r m c) r else r

/-- The flags byte of an outcome: phase target present, gain clamped, phase clamped (11.7). -/
def targetFlags (m : MeterConstants) (t : Int × Option Int) : Byte :=
  flagByte [t.2.isSome, (clampWord m.gainWidth t.1).2,
    t.2.any (fun w => (clampWord m.phaseWidth w).2)]

/-- The targets after clamping, the phase target 0 when absent (11.7). -/
def targetBytes (m : MeterConstants) (t : Int × Option Int) : List Byte :=
  intBytes 4 (clampWord m.gainWidth t.1).1 ++
    intBytes 4 ((t.2.map (fun w => (clampWord m.phaseWidth w).1)).getD 0)

/-- The outcome bytes of a position that takes part: 0 READY, 1 OUT_OF_TRIM, 2 NO_CORRECTION (R123, 11.7). A
NO_CORRECTION outcome carries no targets: its phase target is marked absent, and so 0 (11.7), and its gain target, for
which 11.7 gives neither a value nor a presence bit, is carried as 0 (DESIGN CHOICE, assumption 6). -/
def targetsAnswer (m : MeterConstants) (t : Fin 32 ⊕ (Int × Option Int)) : List Byte :=
  match t with
  | .inl n => 2 :: 0 :: List.replicate 8 0 ++ [byteOf n.val, 0]
  | .inr t => (if targetsFit m t then 0 else 1) :: targetFlags m t :: targetBytes m t ++ [0, 0]

/-- The outcome bytes of a SKIPPED position (R123, 11.7). Its phase target is marked absent, and so 0 (11.7); its gain
target is carried as 0 (DESIGN CHOICE, assumption 6). -/
def skippedCorrection (r : PositionRecord) : List Byte :=
  3 :: 0 :: List.replicate 8 0 ++ [r.state.code, r.inFlight.code]

/-- The 13 answer bytes of a position, from its record before the computation (11.7). -/
def correctionAnswer (c : CorrectionSteps) (s : State) (p : Pos) : List Byte :=
  posByte p ::
    match (s.pos p).meter with
    | none => skippedCorrection (s.pos p)
    | some m =>
      if takesPart (s.pos p) then targetsAnswer m (correctionTargets (s.pos p) m c)
      else skippedCorrection (s.pos p)

/-- The step of a slot that holds an ERROR step. -/
def errorStepAt (s : State) (n : Fin 32) : Option StepRecord :=
  (s.psc.plan[n.val]).filter (fun r => decide (stepKind r = some .error))

/-- Step B of a command that carries it: an ERROR step, not step A, its tangent at least 100 in magnitude
(R117). -/
def stepBOf (s : State) (a : Fin 32) (b : Byte) : Option (Fin 32 × Int) :=
  match stepSlotOf b with
  | none => none
  | some n =>
    match errorStepAt s n with
    | none => none
    | some r => if n = a ∨ r.tangent.toInt.natAbs < 100 then none else some (n, r.tangent.toInt)

/-- The steps of a command that passes R117. -/
def correctionSteps (s : State) (a : Byte) (b : Option Byte) : Option CorrectionSteps :=
  match stepSlotOf a with
  | none => none
  | some n =>
    match errorStepAt s n, b with
    | none, _ => none
    | some _, none => some (n, none)
    | some _, some b => (stepBOf s n b).map (fun x => (n, some x))

/-- CORRECTION_COMPUTE at its owner (R117). -/
def correctionComputeActs (mask : Word16) (a : Byte) (b : Option Byte) (s : State) : State × Reply :=
  if !maskFits mask || (maskPositions mask).isEmpty then refuse .badArg s
  else
    match correctionSteps s a b with
    | none => refuse .badArg s
    | some c =>
      accept (byteOf (maskPositions mask).length :: (maskPositions mask).flatMap (correctionAnswer c s))
        (forEach (maskPositions mask) (fun p t => t.setPos p (computeCorrection c (t.pos p))) s)

/-! ### VERIFY_EVALUATE (R127 to R130) -/

/-- The entry is present with verdict PASS. -/
def isPass : Option Entry → Bool
  | none => false
  | some e => decide (e.verdict = .pass)

/-- The listed step numbers in ascending order. -/
def listedSteps (steps : List Byte) : List (Fin 32) :=
  allSteps.filter (fun n => decide (byteOf n.val ∈ steps))

/-- The lowest listed step whose entry is not a present PASS (R130). -/
def firstNotPassed (l : List (Fin 32)) (r : PositionRecord) : Option (Fin 32) :=
  l.find? (fun n => !isPass r.results[n.val])

/-- The value a verification pair copies from an entry (R129). -/
def verificationValue : Option Entry → Int
  | none => 0
  | some e =>
    match e.fields with
    | .error _ _ _ stats => meanOf stats
    | .register _ _ err => err.getD 0
    | _ => 0

/-- The verification set of a position: the first 8 listed steps (R129). -/
def verificationPairs (l : List (Fin 32)) (r : PositionRecord) : List (Nat × Int) :=
  (l.take 8).map (fun n => (n.val, verificationValue r.results[n.val]))

/-- The record that reaches VERIFIED (R33). -/
def verifiedRecord (l : List (Fin 32)) (r : PositionRecord) : PositionRecord :=
  { r with
    state := .verified, correction := none, outOfTrim := false, verification := verificationPairs l r }

/-- The evaluation of one position (R128). -/
def evaluatePosition (l : List (Fin 32)) (r : PositionRecord) : PositionRecord :=
  if takesPart r && (firstNotPassed l r).isNone then verifiedRecord l r else r

/-- Entry present and verdict, as NOT_VERIFIED carries them (11.7). -/
def entryMark : Option Entry → List Byte
  | none => [0, 0]
  | some e => [1, e.verdict.code]

/-- The 5 answer bytes of a position: 0 VERIFIED, 1 NOT_VERIFIED, 2 SKIPPED (R130, 11.7). -/
def verifyAnswer (l : List (Fin 32)) (s : State) (p : Pos) : List Byte :=
  posByte p ::
    if takesPart (s.pos p) then
      match firstNotPassed l (s.pos p) with
      | none => [0, byteOf (verificationPairs l (s.pos p)).length, 0, 0]
      | some n => [1, byteOf n.val] ++ entryMark (s.pos p).results[n.val]
    else [2, (s.pos p).state.code, (s.pos p).inFlight.code, 0]

/-- The step list of a command that passes R127: 1 to 32 step numbers, none twice. -/
def stepListOk (steps : List Byte) : Bool :=
  !steps.isEmpty && steps.all (fun b => decide (b.toNat < 32)) && decide steps.Nodup

/-- VERIFY_EVALUATE at its owner (R127). -/
def verifyEvaluateActs (mask : Word16) (steps : List Byte) (s : State) : State × Reply :=
  if !maskFits mask || (maskPositions mask).isEmpty || !stepListOk steps then refuse .badArg s
  else
    accept (byteOf (maskPositions mask).length ::
        (maskPositions mask).flatMap (verifyAnswer (listedSteps steps) s))
      (forEach (maskPositions mask) (fun p t => t.setPos p (evaluatePosition (listedSteps steps) (t.pos p))) s)

/-! ### Meanings -/

/-- CORRECTION_COMPUTE (R117). -/
def execCorrectionCompute (tag : Byte) (mask : Word16) (a : Byte) (b : Option Byte) (s : State) :
    Host.Outcome State Fault Refusal :=
  .next (takeCommand tag (correctionComputeActs mask a b) s)

/-- VERIFY_EVALUATE (R127). -/
def execVerifyEvaluate (tag : Byte) (mask : Word16) (steps : List Byte) (s : State) :
    Host.Outcome State Fault Refusal :=
  .next (takeCommand tag (verifyEvaluateActs mask steps) s)

end Sys2Proof.Machine
end

