-- ==== Sys2Proof/Machine/Ports.lean ====
section
/-! DEFINITION. Meter Port Channels (chapter 8): the ends of transactions, reading extraction, held answers,
the port profile, the templates and IDENTIFY; and the ends of trim and seal transactions (R31, R32, R161,
R162, R170). -/

namespace Sys2Proof.Machine

/-! ### Ends of relay transactions -/

/-- A result list with every entry absent. -/
def noResults : Vector (Option Entry) 32 := Vector.replicate 32 none

/-- The record after a trim outcome (R31). -/
def PositionRecord.trimEnds (o : PortOutcome) (gain : Int) (phase : Option Int) (r : PositionRecord) :
    PositionRecord :=
  if o = .acked then
    { r with
      gain := gain, phase := phase.getD r.phase, correction := none, trimRounds := r.trimRounds + 1,
      state := .trimmed, results := noResults, inFlight := .none }
  else { r with inFlight := .none }

/-- The record after a seal outcome, STORE_FULL counted with the unacknowledged ones (R32). -/
def PositionRecord.sealEnds (acked : Bool) (r : PositionRecord) : PositionRecord :=
  { r with state := if acked then .sealed else .verified, inFlight := .none }

/-- The kind of record a seal outcome leaves (R170). -/
def recordKindOf : PortOutcome → RecordKind
  | .acked => .sealed
  | .noReply => .void .noReply
  | .aborted => .void .aborted
  | _ => .void .nack

/-- The fields a body job captures (R170). -/
def capturedBody (k : RecordKind) (r : PositionRecord) : SealBody :=
  { kind := k, runId := r.runId, serial := r.serial, trimRounds := r.trimRounds, gain := r.gain,
    phase := r.phase, verification := r.verification }

/-- The header of a flow's record. -/
def flowHeader (p : Pos) (number : Nat) (s : State) : Header :=
  { number := number, pos := p, address := s.strap }

/-- The outcome of a seal transaction at the PT and the SRS: the flow is over and its body job is queued
(R170). -/
def sealOutcome (p : Pos) (o : PortOutcome) (s : State) : State :=
  let t := s.setPos p ((s.pos p).sealEnds (decide (o = .acked)))
  match s.flow p with
  | none => t
  | some f =>
    queueJob (.body f.slot (flowHeader p f.number s) (capturedBody (recordKindOf o) (t.pos p))) (t.setFlow p none)

/-- The effects of a relay's outcome on the position and the store, made before its answer is offered
(R141, R156, R162, R170). -/
def relayEffects (p : Pos) (k : RelayKind) (o : PortOutcome) (s : State) : State :=
  match k with
  | .plain => s
  | .trim gain phase => s.setPos p ((s.pos p).trimEnds o gain phase)
  | .seal _ => sealOutcome p o s

/-- The ack test of a REPLIED transaction (R161). -/
def ackHolds (ack : Option AckTest) (f : Profile) (b : ReplyBuffer) : Bool :=
  match ack with
  | none => false
  | some a =>
    !b.truncated && decide (checksumResult f.checksum f.start b ≠ .bad) &&
      decide (a.offset < b.bytes.length - checksumSize f.checksum) &&
      decide (b.bytes[a.offset]? = some a.expected)

/-- The outcome of a relay: the ack test turns REPLIED into ACKED or NACKED for a trim or a seal (R161). -/
def judgedOutcome (r : RelayRequest) (f : Profile) (o : PortOutcome) (b : ReplyBuffer) : PortOutcome :=
  match r.kind, o with
  | .plain, o => o
  | _, .replied => if ackHolds r.ack f b then .acked else .nacked
  | _, o => o

/-- The deferred answer of a relay (R156, R162). A reply's end carries its bytes and flags; an
end without a reply carries no bytes, and in the flags NOT_CHECKED with TRUNCATED clear (DESIGN CHOICE, assumption 38). -/
def relayAnswer (r : RelayRequest) (f : Profile) (o : PortOutcome) (b : ReplyBuffer) : PortAnswer :=
  if o = .replied then
    .ended r.tag (judgedOutcome r f o b) b.bytes b.truncated (checksumResult f.checksum f.start b)
  else .ended r.tag o [] false .notChecked

/-- The channel enters IDLE and starts its next request (R142). -/
def freeChannel (p : Pos) (s : State) : State := settle (tryStart p (s.setChan p (s.chan p).free))

/-- An offered answer finds no place: the queue is full, or its free place belongs to an answer held longer
(R185; assumption 19). -/
def State.mustHold (s : State) : Bool := s.answersFull || !s.bli.held.isEmpty

/-- A channel offers an answer: it joins the queue and the channel enters IDLE, or the channel holds it in
REPLY_HELD (R141, R185). -/
def offerFromChannel (p : Pos) (a : PortAnswer) (s : State) : State :=
  if s.mustHold then
    buildDue (holdAnswer (.channel p) ((settleOwed s).setChan p { s.chan p with state := .replyHeld a }))
  else freeChannel p (pushPortAnswer a (settleOwed s))

/-- The answer of a relay request that ended in its slot: it joins the queue and leaves the slot, or waits
there ended (R147, R169). -/
def offerFromSlot (p : Pos) (a : PortAnswer) (s : State) : State :=
  if s.mustHold then
    holdAnswer (.slot p) ((settleOwed s).setChan p { s.chan p with relay := .ended a })
  else pushPortAnswer a ((settleOwed s).setChan p { s.chan p with relay := .empty })

/-- A relay transaction ends (R141). -/
def relayEnds (p : Pos) (r : RelayRequest) (f : Profile) (o : PortOutcome) (b : ReplyBuffer) (s : State) :
    State :=
  offerFromChannel p (relayAnswer r f o b) (relayEffects p r.kind (judgedOutcome r f o b) s)

/-! ### Reading extraction (R137) -/

/-- The bytes of a reply before its checksum. -/
def replyBody (kind : ChecksumKind) (b : ReplyBuffer) : List Byte :=
  b.bytes.take (b.bytes.length - checksumSize kind)

/-- The field of a template reply, unless the checksum is bad or the field lies beyond the reply. -/
def extractedField (t : TemplateRecord) (f : Profile) (b : ReplyBuffer) : Option (List Byte) :=
  if checksumResult f.checksum f.start b = .bad then none
  else if (replyBody f.checksum b).length < t.offset.toNat + t.length.toNat then none
  else some (((replyBody f.checksum b).drop t.offset.toNat).take t.length.toNat)

/-- The number of decimal digits, the first most significant. -/
def digitsValue (l : List Nat) : Nat := l.foldl (fun acc d => acc * 10 + d) 0

/-- The two decimal digits of a BCD byte. -/
def bcdDigits (b : Byte) : List Nat := [b.toNat / 16, b.toNat % 16]

/-- The value of a field under an encoding of a REGISTER_READ template. -/
def fieldValue (encoding : Byte) (field : List Byte) : Option Nat :=
  match encoding.toNat with
  | 1 =>
    if (field.flatMap bcdDigits).all (fun d => decide (d ≤ 9)) then some (digitsValue (field.flatMap bcdDigits))
    else none
  | 2 => some (beValue field)
  | 3 =>
    if field.all (fun b => inRange 0x30 0x39 b.toNat) then
      some (digitsValue (field.map (fun b => b.toNat - 0x30)))
    else none
  | _ => none

/-- A register reading, below 10^digits. -/
def extractedReading (t : TemplateRecord) (digits : Nat) (f : Profile) (b : ReplyBuffer) : Option Nat :=
  match extractedField t f b with
  | none => none
  | some field => (fieldValue t.encoding field).filter (fun v => decide (v < 10 ^ digits))

/-- A serial of printable characters. -/
def extractedSerial (t : TemplateRecord) (f : Profile) (b : ReplyBuffer) : Option (List Byte) :=
  (extractedField t f b).filter (fun l => l.all (fun c => inRange 0x20 0x7E c.toNat))

/-! ### Ends of transactions -/

/-- READING or BAD_READING at the identify logic (R146). -/
def identifyReply (p : Pos) (x : Option (List Byte)) (s : State) : State :=
  match x with
  | none => identifyOutcome p .badReading none s
  | some serial => identifyOutcome p .serial (some serial) s

/-- READING or BAD_READING at the register logic (R108, R111). -/
def readReply (p : Pos) (x : Option Nat) (s : State) : State :=
  match x with
  | none => readOutcome p (.inl .badReading) s
  | some v => readOutcome p (.inr v) s

/-- A template transaction ends: the channel enters IDLE, the owner takes the outcome, and the channel starts
its next request (R140, R142). -/
def templateEnds (p : Pos) (owner : State → State) (s : State) : State :=
  settle (tryStart p (owner (s.setChan p (s.chan p).free)))

/-- The end of a transaction by its reply (R140). -/
def replyEnds (p : Pos) (t : Transaction) (b : ReplyBuffer) (s : State) : State :=
  match t.owner with
  | .relay r => relayEnds p r t.profile .replied b s
  | .identify tpl => templateEnds p (identifyReply p (extractedSerial tpl t.profile b)) s
  | .registerRead digits tpl => templateEnds p (readReply p (extractedReading tpl digits t.profile b)) s

/-- The end of a transaction without a reply: NO_REPLY, or SENT for a relay that expects none (R138,
R139). -/
def silentEnds (p : Pos) (t : Transaction) (o : PortOutcome) (s : State) : State :=
  match t.owner with
  | .relay r => relayEnds p r t.profile o .empty s
  | .identify _ => templateEnds p (identifyOutcome p .noReply none) s
  | .registerRead _ _ => templateEnds p (readOutcome p (.inl .noReply)) s

/-- The last stop bit of a frame has been sent, and nothing is left on its way out (R138). -/
def sendingEnd (p : Pos) (s : State) : State :=
  match (s.chan p).state with
  | .sending t =>
    if t.expectReply then s.setChan p { s.chan p with state := .awaitReply t 0, wire := [], buffer := .empty }
    else silentEnds p t .sent (s.setChan p { s.chan p with wire := [] })
  | _ => s

/-- The first start bit of a reply (R139). -/
def firstStartBit (p : Pos) (s : State) : State :=
  match (s.chan p).state with
  | .awaitReply t _ => s.setChan p { s.chan p with state := .receiving t }
  | _ => s

/-- The reply timeout expires (R139). -/
def replyTimeout (p : Pos) (s : State) : State :=
  match (s.chan p).state with
  | .awaitReply t _ => silentEnds p t .noReply s
  | _ => s

/-- The byte held for a received character: 7 data bits leave the eighth 0 (R133). -/
def heldByte (f : Profile) (b : Byte) : Byte := if f.sevenBits then b &&& 0x7F else b

/-- A received character is faulty: its stop bit is low, or its parity bit is not the one its data bits call for
(R133). -/
def charFault (f : Profile) (c : RxChar) : Bool :=
  !c.stop || (parityBit f c.byte).any (fun b => decide (b ≠ c.parity))

/-- One received character in the reply buffer (R140). -/
def ReplyBuffer.feed (f : Profile) (b : ReplyBuffer) (c : RxChar) : ReplyBuffer :=
  if b.bytes.length < Config.replyBytes then
    { b with bytes := b.bytes ++ [heldByte f c.byte], charError := b.charError || charFault f c }
  else { b with truncated := true, charError := b.charError || charFault f c }

/-- Microseconds of silence that end a reply: the reply gap of the profile, in bit times of D + 1 microseconds
(8.1, R140). -/
def gapMicros (f : Profile) : Nat := f.gap * (f.divisor + 1)

/-- The characters of a reply out of those the line brought: the first, and each whose start bit came before the gap
had passed. The gap ends the reply, and what comes after it is discarded, as its channel is no longer in RECEIVING
(R133, R140). -/
def replyChars (f : Profile) : List RxChar → List RxChar
  | [] => []
  | c :: rest => c :: rest.takeWhile (fun d => decide (d.idle < gapMicros f))

/-- The reply ends by its gap, having brought these characters (R140). -/
def replyEnd (p : Pos) (chars : List RxChar) (s : State) : State :=
  match (s.chan p).state with
  | .receiving t =>
    let b := (replyChars t.profile chars).foldl (ReplyBuffer.feed t.profile) (s.chan p).buffer
    replyEnds p t b (s.setChan p { s.chan p with buffer := b })
  | _ => s

/-- TRANSACTION_START: an IDLE channel starts what it can (R142). -/
def transactionStart (p : Pos) (s : State) : State := settle (tryStart p s)

/-! ### Held answers (R185) -/

/-- The order of the held answers replaced. -/
def setHeld (l : List HeldAt) (s : State) : State := { s with bli := { s.bli with held := l } }

/-- A held answer leaves its channel or its slot for the answer queue. -/
def releaseHeld (h : HeldAt) (s : State) : State :=
  match h with
  | .channel p =>
    match (s.chan p).state with
    | .replyHeld a => freeChannel p (pushPortAnswer a s)
    | _ => s
  | .slot p =>
    match (s.chan p).relay with
    | .ended a => pushPortAnswer a (s.setChan p { s.chan p with relay := .empty })
    | _ => s

/-- The longest-held answer takes a free place of the answer queue (R185). -/
def heldAnswerTaken (s : State) : State :=
  match s.bli.held with
  | [] => s
  | h :: rest => if s.answersFull then s else releaseHeld h (setHeld rest s)

/-! ### Profile, templates, IDENTIFY -/

/-- The stored profile replaced. -/
def setProfile (f : Profile) (s : State) : State := { s with pch := { s.pch with profile := f } }

/-- PROFILE_WRITE at its owner (R132). -/
def profileWriteActs (r : ProfileRecord) (s : State) : State × Reply :=
  match profileOf r with
  | none => refuse .badArg s
  | some f =>
    if s.readingPhase ∧ (f.checksum ≠ s.pch.profile.checksum ∨ f.start ≠ s.pch.profile.start) then
      refuse .badState s
    else accept (profileBytes f) (setProfile f s)

/-- PROFILE_READ at its owner (R132). -/
def profileReadActs (s : State) : State × Reply := accept (profileBytes s.pch.profile) s

/-- A template replaced. -/
def setTemplate (register : Bool) (r : TemplateRecord) (s : State) : State :=
  if register then { s with pch := { s.pch with registerRead := r } }
  else { s with pch := { s.pch with identify := r } }

/-- TEMPLATE_WRITE at its owner (R136). -/
def templateWriteActs (which : Byte) (r : TemplateRecord) (s : State) : State × Reply :=
  match templateIsRegister which with
  | none => refuse .badArg s
  | some register =>
    if !templateOk register r then refuse .badArg s
    else if register ∧ s.readingPhase then refuse .badState s
    else accept (which :: templateBytes r) (setTemplate register r s)

/-- TEMPLATE_READ at its owner (R136). -/
def templateReadActs (which : Byte) (s : State) : State × Reply :=
  match templateIsRegister which with
  | none => refuse .badArg s
  | some register => accept (which :: templateBytes (if register then s.pch.registerRead else s.pch.identify)) s

/-- The outcome IDENTIFY gives a masked position: 0 QUEUED, 1 BUSY, 2 SKIPPED (R145, 11.7). -/
def identifyAnswer (s : State) (p : Pos) : Byte :=
  if (s.pos p).state = .empty then 2 else if (s.chan p).internal.isNone then 0 else 1

/-- IDENTIFY at its owner (R145). -/
def identifyActs (mask : Word16) (s : State) : State × Reply :=
  if !maskFits mask || (maskPositions mask).isEmpty then refuse .badArg s
  else
    accept (byteOf (maskPositions mask).length ::
        (maskPositions mask).flatMap (fun p => [posByte p, identifyAnswer s p]))
      (settle (forEach ((maskPositions mask).filter (fun p => decide (identifyAnswer s p = 0)))
        (fun p t => placeTemplate p .identify t) s))

/-! ### Meanings -/

/-- TRANSACTION_START (R142). -/
def execTransactionStart (p : Pos) (s : State) : Host.Outcome State Fault Refusal := .next (transactionStart p s)

/-- SENDING_END (R138). -/
def execSendingEnd (p : Pos) (s : State) : Host.Outcome State Fault Refusal := .next (sendingEnd p s)

/-- FIRST_START_BIT (R139). -/
def execFirstStartBit (p : Pos) (s : State) : Host.Outcome State Fault Refusal := .next (firstStartBit p s)

/-- REPLY_TIMEOUT (R139). -/
def execReplyTimeout (p : Pos) (s : State) : Host.Outcome State Fault Refusal := .next (replyTimeout p s)

/-- REPLY_END (R140). -/
def execReplyEnd (p : Pos) (chars : List RxChar) (s : State) : Host.Outcome State Fault Refusal :=
  .next (replyEnd p chars s)

/-- HELD_ANSWER_TAKEN (R185). -/
def execHeldAnswerTaken (s : State) : Host.Outcome State Fault Refusal := .next (heldAnswerTaken s)

/-- PROFILE_WRITE (R132). -/
def execProfileWrite (tag : Byte) (r : ProfileRecord) (s : State) : Host.Outcome State Fault Refusal :=
  .next (takeCommand tag (profileWriteActs r) s)

/-- PROFILE_READ (R132). -/
def execProfileRead (tag : Byte) (s : State) : Host.Outcome State Fault Refusal :=
  .next (takeCommand tag profileReadActs s)

/-- TEMPLATE_WRITE (R136). -/
def execTemplateWrite (tag which : Byte) (r : TemplateRecord) (s : State) : Host.Outcome State Fault Refusal :=
  .next (takeCommand tag (templateWriteActs which r) s)

/-- TEMPLATE_READ (R136). -/
def execTemplateRead (tag which : Byte) (s : State) : Host.Outcome State Fault Refusal :=
  .next (takeCommand tag (templateReadActs which) s)

/-- IDENTIFY (R145). -/
def execIdentify (tag : Byte) (mask : Word16) (s : State) : Host.Outcome State Fault Refusal :=
  .next (takeCommand tag (identifyActs mask) s)

end Sys2Proof.Machine
end

