-- ==== Sys2Proof/Machine/Relay.lean ====
section
/-! DEFINITION. The Frame Rule Table (chapter 9): the rules, and the acceptance of a PORT frame with its seal
acceptance (R168). -/

namespace Sys2Proof.Machine

/-! ### Rules -/

/-- A rule replaced. -/
def setRule (i : Fin 16) (f : FrameRule) (s : State) : State := { s with rules := s.rules.set i.val f }

/-- RULE_WRITE at its owner (R148, R149). -/
def ruleWriteActs (index : Byte) (r : RuleRecord) (s : State) : State × Reply :=
  match ruleIndexOf index, ruleOf r with
  | some i, some f => if ruleOk f then accept (ruleBytes i f) (setRule i f s) else refuse .badArg s
  | _, _ => refuse .badArg s

/-- RULE_READ at its owner (R149). -/
def ruleReadActs (index : Byte) (s : State) : State × Reply :=
  match ruleIndexOf index with
  | none => refuse .badArg s
  | some i => accept (ruleBytes i s.rules[i.val]) s

/-! ### Matching (R150, R151) -/

/-- The object code at an offset of a frame (R150). -/
def objectCode (at_ : Nat) (frame : List Byte) : Word16 :=
  BitVec.ofNat 16 ((frame.getD at_ 0).toNat * 256 + (frame.getD (at_ + 1) 0).toNat)

/-- A code matches a rule: equal in every place where the mask holds 0 (R150). -/
def codeMatches (f : FrameRule) (code : Word16) : Bool := (code ^^^ f.value) &&& ~~~f.mask == 0

/-- The frame's rule: the first enabled rule it matches (R151). -/
def State.ruleFor (s : State) (code : Word16) : Option FrameRule :=
  s.rules.toList.find? (fun f => f.enabled && codeMatches f code)

/-- The state is one of the rule's allowed states. -/
def stateAllowed (f : FrameRule) (x : PosState) : Bool :=
  match x with
  | .loaded => f.allowed.loaded
  | .trimmed => f.allowed.trimmed
  | .verified => f.allowed.verified
  | .sealed => f.allowed.sealed
  | _ => false

/-! ### Patches (R157, R158) -/

/-- Every patch field of a rule ends before the checksum of a frame of this length (R157). -/
def patchesFit (f : FrameRule) (kind : ChecksumKind) (length : Nat) : Bool :=
  f.patches.all (fun p => decide (p.offset + patchSize p.source ≤ length - checksumSize kind))

/-- The bytes a source writes, most significant first; none for a PHASE patch without a pending phase word
(R157). -/
def sourceBytes (r : PositionRecord) (p : Pos) (number : Nat) : PatchSource → Option (List Byte)
  | .gain => some (intBytes 2 (pendingGain r))
  | .phase => (pendingPhase r).map (intBytes 2)
  | .sealNumber => some (beBytes 4 number)
  | .position => some [posByte p]

/-- Bytes written over a frame at an offset. -/
def overwrite (offset : Nat) (bytes frame : List Byte) : List Byte :=
  frame.take offset ++ bytes ++ frame.drop (offset + bytes.length)

/-- The bytes of a field in its byte order. -/
def orderBytes (little : Bool) (bytes : List Byte) : List Byte := if little then bytes.reverse else bytes

/-- One patch field written, if its source has a value. -/
def writePatch (value : PatchSource → Option (List Byte)) (frame : List Byte) (p : Patch) : List Byte :=
  match value p.source with
  | none => frame
  | some bytes => overwrite p.offset (orderBytes p.little bytes) frame

/-- A frame with its patches written, and its checksum computed anew when one was (R157, R158). -/
def patchedFrame (f : FrameRule) (value : PatchSource → Option (List Byte)) (prof : Profile)
    (frame : List Byte) : List Byte :=
  if f.patches.any (fun p => (value p.source).isSome) then
    recomputeChecksum prof.checksum prof.start (f.patches.foldl (writePatch value) frame)
  else frame

/-! ### Acceptance (R152) -/

/-- The condition of R159 that refuses a TRIM_WRITE frame, if one holds. -/
def trimRefusal (f : FrameRule) (p : Pos) (length : Nat) (s : State) : Option Status :=
  if s.isRunning p ∨ (s.pos p).inFlight ≠ .none then some .wrongState
  else if (s.pos p).correction.isNone then some .noCorrection
  else if s.pt.trimLimit ≤ (s.pos p).trimRounds then some .trimLimit
  else if !patchesFit f s.pch.profile.checksum length then some .badArg
  else if (pendingPhase (s.pos p)).isSome && !hasPatch .phase f then some .badArg
  else none

/-- The figure of R168: queued jobs, the running one, and the body jobs owed by live flows. -/
def Srs.sealLoad (r : Srs) : Nat := r.jobs.length + r.liveFlows

/-- The condition of R168 that refuses a SEAL frame, if one holds. -/
def sealRefusal (f : FrameRule) (p : Pos) (length : Nat) (s : State) : Option Status :=
  if (s.pos p).state ≠ .verified ∨ s.isRunning p ∨ (s.pos p).inFlight ≠ .none then some .wrongState
  else if s.scanning ∨ Config.sealJobLimit ≤ s.srs.sealLoad then some .busy
  else if s.srs.freeCount = 0 ∨ 4294967296 ≤ s.srs.nextSeal then some .storeFull
  else if !patchesFit f s.pch.profile.checksum length then some .badArg
  else none

/-- The refusal at order 6 or 7 of R152, if one applies. -/
def actionRefusal (f : FrameRule) (p : Pos) (length : Nat) (s : State) : Option Status :=
  match f.action with
  | .block => some .blocked
  | .relay => if patchesFit f s.pch.profile.checksum length then none else some .badArg
  | .trimWrite => trimRefusal f p length s
  | .seal => sealRefusal f p length s

/-- The refusals from order 4 of R152 on, for a position and a frame that holds an object code: the status,
or the frame's rule. -/
def ruleRefusal (p : Pos) (frame : List Byte) (s : State) : Status ⊕ FrameRule :=
  match s.ruleFor (objectCode s.pch.profile.codeAt frame) with
  | none => .inl .noRule
  | some f =>
    if !stateAllowed f (s.pos p).state then .inl .wrongState
    else
      match actionRefusal f p frame.length s with
      | some st => .inl st
      | none => if (s.chan p).relayFree then .inr f else .inl .busy

/-- The judgement of a PORT frame for a position (R152): a refusal, or the frame's rule. -/
def portJudgement (p : Pos) (frame : List Byte) (s : State) : Status ⊕ FrameRule :=
  if (s.pos p).state = .empty then .inl .wrongState
  else if frame.length < s.pch.profile.codeAt + 2 then .inl .shortFrame
  else ruleRefusal p frame s

/-- The start of a write at the PT (R31, R32). -/
def startWrite (p : Pos) (w : WriteInFlight) (s : State) : State :=
  s.setPos p
    { s.pos p with
      inFlight := w,
      state := match w with
        | .seal => .sealing
        | _ => (s.pos p).state }

/-- The acts 1 to 4 of a seal acceptance (R168). -/
def acceptSeal (p : Pos) (s : State) : State :=
  let number := s.srs.nextSeal
  let slot := s.srs.pointer
  startWrite p .seal
    (queueJob (.header slot (flowHeader p number s))
      (({ s with srs := { s.srs.reserve number p with nextSeal := number + 1 } }).setFlow p
        (some { number := number, slot := slot })))

/-- The effects of an accepted frame's action on the position and the store (R153). -/
def actionEffects (f : FrameRule) (p : Pos) (s : State) : State :=
  match f.action with
  | .trimWrite => startWrite p .trim s
  | .seal => acceptSeal p s
  | _ => s

/-- What the relay request of an accepted frame carries beside its frame (R153, R160, R168). -/
def relayKindOf (f : FrameRule) (p : Pos) (s : State) : RelayKind :=
  match f.action with
  | .trimWrite =>
    .trim (pendingGain (s.pos p)) (if hasPatch .phase f then pendingPhase (s.pos p) else none)
  | .seal => .seal s.srs.nextSeal
  | _ => .plain

/-- The relay request of an accepted frame, made from the state before its effects (R153). -/
def relayRequestOf (tag : Byte) (f : FrameRule) (p : Pos) (frame : List Byte) (s : State) : RelayRequest :=
  { tag := tag,
    frame := patchedFrame f (sourceBytes (s.pos p) p s.srs.nextSeal) s.pch.profile frame,
    sendable := decide (f.action ≠ .seal), expectReply := f.expectReply, timeout := f.timeout,
    kind := relayKindOf f p s, ack := f.ack }

/-- One more answer is owed (R185). -/
def oweAnswer (s : State) : State := { s with bli := { s.bli with owed := s.bli.owed + 1 } }

/-- An accepted frame: effects, patches, hand-off, and an answer owed (R153). -/
def acceptFrame (tag : Byte) (f : FrameRule) (p : Pos) (frame : List Byte) (s : State) : State :=
  handRelay p (relayRequestOf tag f p frame s) (oweAnswer (actionEffects f p s))

/-- The refusal of a PORT command as its answer. -/
def refusePort (tag : Byte) (st : Status) (s : State) : State := pushAnswer tag { status := st, bytes := [] } s

/-- PORT at its owner (R152, R153). -/
def portActs (tag position : Byte) (frame : List Byte) (s : State) : State :=
  match posOf position.toNat with
  | none => refusePort tag .badArg s
  | some p =>
    if !inRange 1 240 frame.length then refusePort tag .badArg s
    else
      match portJudgement p frame s with
      | .inl st => refusePort tag st s
      | .inr f => acceptFrame tag f p frame s

/-- The drop check of a PORT command (R184). -/
def State.portFull (s : State) : Bool :=
  s.answersFull || decide (Config.answerPlaces ≤ s.bli.answers.length + s.bli.owed)

/-- The taking of a PORT command (R184). -/
def takePort (tag position : Byte) (frame : List Byte) (s : State) : State :=
  if s.deaf then s else if s.portFull then dropCommand s else portActs tag position frame s

/-! ### Meanings -/

/-- RULE_WRITE (R148). -/
def execRuleWrite (tag index : Byte) (r : RuleRecord) (s : State) : Host.Outcome State Fault Refusal :=
  .next (takeCommand tag (ruleWriteActs index r) s)

/-- RULE_READ (R149). -/
def execRuleRead (tag index : Byte) (s : State) : Host.Outcome State Fault Refusal :=
  .next (takeCommand tag (ruleReadActs index) s)

/-- PORT (R152). -/
def execPort (tag position : Byte) (frame : List Byte) (s : State) : Host.Outcome State Fault Refusal :=
  .next (takePort tag position frame s)

end Sys2Proof.Machine
end

