-- ==== Sys2Proof/Machine/Seal.lean ====
section
/-! DEFINITION. The Seal Record Store's events and commands (10.3 to 10.7): the ends of flash jobs, the
start-up scan, and the store commands. -/

namespace Sys2Proof.Machine

/-- The store part of the state replaced. -/
def setSrs (r : Srs) (s : State) : State := { s with srs := r }

/-- A store event recorded, with its mark (R180). -/
def recordStoreEvent (e : StoreEvent) (s : State) : State :=
  markStoreEvent { s with srs := { s.srs with lastEvent := some e } }

/-- What ends a job of the store: the next one starts, and the reports that are due are built (R172, R190). -/
def jobOver (s : State) : State := buildDue (endJob s)

/-- The store at the end of the wait for a flash operation: every queued job is discarded, every reservation dropped,
and the scan begins (R177). -/
def Srs.beginScan (r : Srs) : Srs := { r with reserved := [], queue := [], running := none, phase := .scanning }

/-- A job that began before a reset ends while the scan waits for it: its result is not acted on, and the scan
begins (R177). -/
def endWait (r : Srs) (s : State) : State := setSrs r.beginScan s

/-! ### Header jobs (R169) -/

/-- The flow that owns a header: the live flow of its position under its number. -/
def liveFlow (h : Header) (s : State) : Bool :=
  match s.flow h.pos with
  | none => false
  | some f => decide (f.number = h.number)

/-- The relay request carries this seal number. -/
def carriesNumber (number : Nat) (r : RelayRequest) : Bool :=
  match r.kind with
  | .seal n => decide (n = number)
  | _ => false

/-- A header reported programmed makes the request of its number sendable, and an IDLE channel starts it
(R143). -/
def makeSendable (p : Pos) (number : Nat) (s : State) : State :=
  match (s.chan p).relay with
  | .waiting r =>
    if carriesNumber number r then
      tryStart p (s.setChan p { s.chan p with relay := .waiting { r with sendable := true } })
    else s
  | _ => s

/-- The answer of a flow that ends STORE_FULL, offered from the relay slot (R169). -/
def endUnsent (p : Pos) (number : Nat) (s : State) : State :=
  match (s.chan p).relay with
  | .waiting r => if carriesNumber number r then offerFromSlot p (.storeFull r.tag) s else s
  | _ => s

/-- A live flow whose header failed with no slot free ends without sending (R169). -/
def flowStoreFull (h : Header) (s : State) : State :=
  endUnsent h.pos h.number ((s.setFlow h.pos none).setPos h.pos ((s.pos h.pos).sealEnds false))

/-- A live flow whose header failed takes the next slot and a new header job (R169). -/
def retryHeader (h : Header) (s : State) : State :=
  queueJob (.header s.srs.pointer h)
    ((setSrs (s.srs.reserve h.number h.pos) s).setFlow h.pos
      (some { number := h.number, slot := s.srs.pointer }))

/-- The store after the failed job of a slot: failure note, no reservation, highest number (R165). -/
def failedSlot (j : Job) (slot number : Nat) (r : Srs) : Srs :=
  ((flashResult false j r).setReservation slot none).noteNumber number slot

/-- A header job failed (R169, R173). -/
def headerFailed (slot : Nat) (h : Header) (s : State) : State :=
  let t := setSrs (failedSlot (.header slot h) slot h.number s.srs) s
  if liveFlow h t then if t.srs.freeCount = 0 then flowStoreFull h t else retryHeader h t else t

/-- A header job succeeded (R169). -/
def headerProgrammedActs (slot : Nat) (h : Header) (s : State) : State :=
  makeSendable h.pos h.number
    (setSrs ((flashResult true (.header slot h) s.srs).noteNumber h.number slot) s)

/-- HEADER_JOB_END (R169). -/
def headerJobEnd (ok : Bool) (s : State) : State :=
  match s.srs.running with
  | some (.header slot h) =>
    if s.srs.phase = .over then
      jobOver (if ok then headerProgrammedActs slot h s else headerFailed slot h s)
    else endWait (flashResult ok (.header slot h) s.srs) s
  | _ => s

/-! ### Body and full-record jobs (R171) -/

/-- The record of a slot is complete: the slot is VALID and its SEAL_DONE entry is handed on (R171). -/
def recordDone (j : Job) (slot : Nat) (h : Header) (b : SealBody) (s : State) : State :=
  addSealDone { pos := h.pos, number := h.number, slot := some slot, kind := b.kind }
    (setSrs (((flashResult true j s.srs).setReservation slot none).noteNumber h.number slot) s)

/-- The record of a slot failed: a rewrite on the next slot, or RECORD_LOST (R171). -/
def recordFailed (j : Job) (slot : Nat) (h : Header) (b : SealBody) (s : State) : State :=
  let t := setSrs (failedSlot j slot h.number s.srs) s
  if t.srs.freeCount = 0 then
    addSealDone { pos := h.pos, number := h.number, slot := none, kind := b.kind } t
  else queueJob (.fullRecord t.srs.pointer h b) (setSrs (t.srs.reserve h.number h.pos) t)

/-- The end of a job that writes a body (R171). -/
def recordJobEnd (ok : Bool) (j : Job) (slot : Nat) (h : Header) (b : SealBody) (s : State) : State :=
  if s.srs.phase = .over then
    jobOver (if ok then recordDone j slot h b s else recordFailed j slot h b s)
  else endWait (flashResult ok j s.srs) s

/-- BODY_JOB_END (R171). -/
def bodyJobEnd (ok : Bool) (s : State) : State :=
  match s.srs.running with
  | some (.body slot h b) => recordJobEnd ok (.body slot h b) slot h b s
  | _ => s

/-- FULL_RECORD_JOB_END (R171). -/
def fullRecordJobEnd (ok : Bool) (s : State) : State :=
  match s.srs.running with
  | some (.fullRecord slot h b) => recordJobEnd ok (.fullRecord slot h b) slot h b s
  | _ => s

/-! ### Collect and erase jobs (R174, R176) -/

/-- The store after a collect job whose marks failed on some slots (R174). -/
def collected (failed : List Nat) (number : Nat) (r : Srs) : Srs :=
  runActs ((collectMarks failed number r).map .collectedMark) r

/-- The event of a collect job. -/
def collectEvent (failed : List Nat) (number : Nat) (r : Srs) : StoreEvent :=
  .collectDone number (collectMarks failed number r).length
    ((r.collectSlots number).length - (collectMarks failed number r).length)

/-- COLLECT_JOB_END (R174). -/
def collectJobEnd (failed : List Nat) (s : State) : State :=
  match s.srs.running with
  | some (.collect number) =>
    if s.srs.phase = .over then
      jobOver (recordStoreEvent (collectEvent failed number s.srs) (setSrs (collected failed number s.srs) s))
    else endWait (collected failed number s.srs) s
  | _ => s

/-- ERASE_JOB_END (R176). -/
def eraseJobEnd (ok : Bool) (s : State) : State :=
  match s.srs.running with
  | some (.erase sector) =>
    if s.srs.phase = .over then
      jobOver (recordStoreEvent (if ok then .eraseDone sector else .eraseFailed sector)
        (setSrs (flashResult ok (.erase sector) s.srs) s))
    else endWait (flashResult ok (.erase sector) s.srs) s
  | _ => s

/-! ### The start-up scan (R177) -/

/-- The seal number a slot holds by its contents. -/
def Srs.numberOf (r : Srs) (n : Nat) : Option Nat := (r.slot n).classify.2

/-- The higher of a figure and a slot's number, the lower slot kept on a tie (R177). -/
def higherNumber (best : Option (Nat × Nat)) (e : Nat × Option Nat) : Option (Nat × Nat) :=
  match e.2, best with
  | none, _ => best
  | some k, none => some (k, e.1)
  | some k, some b => if b.1 < k then some (k, e.1) else best

/-- The highest seal number of any slot, with the lowest-numbered slot that holds it. -/
def Srs.highestSlot (r : Srs) : Option (Nat × Nat) :=
  (r.contents.map (fun e => (e.1, e.2.classify.2))).foldl higherNumber none

/-- The slot is ERASED by its contents. -/
def Srs.erasedSlot (r : Srs) (n : Nat) : Bool := decide ((r.slot n).classify.1 = .erased)

/-- The first ERASED slot from a start on, wrapping; the slot after the start when there is none (R177). -/
def Srs.pointerFrom (r : Srs) (start : Nat) : Nat :=
  match (List.range Config.storeSlots).find? (fun i => r.erasedSlot ((start + i) % Config.storeSlots)) with
  | some i => (start + i) % Config.storeSlots
  | none => (start + 1) % Config.storeSlots

/-- The figures the scan sets (R177). -/
def Srs.scanned (r : Srs) : Srs :=
  match r.highestSlot with
  | none => { r with phase := .over, pointer := 0, nextSeal := 1, highest := none }
  | some h =>
    { r with
      phase := .over, pointer := r.pointerFrom h.2, nextSeal := h.1 + 1,
      highest := some (h.1, sectorOf h.2) }

/-- SCAN_DONE (R177). -/
def scanDone (s : State) : State :=
  if s.srs.phase = .scanning then buildDue (recordStoreEvent .scanDone (setSrs s.srs.scanned s)) else s

/-! ### Store commands -/

/-- A collect job is queued or running. -/
def Srs.collecting (r : Srs) : Bool :=
  r.jobs.any fun j =>
    match j with
    | .collect _ => true
    | _ => false

/-- An erase job is queued or running. -/
def Srs.erasingAny (r : Srs) : Bool :=
  r.jobs.any fun j =>
    match j with
    | .erase _ => true
    | _ => false

/-- STORE_STATUS at its owner (R179). -/
def storeStatusActs (s : State) : State × Reply := accept (storeStatusBytes s) s

/-- STORE_READ at its owner (R178, R179). A slot number above 1023 is judged before the scan (assumption 18). -/
def storeReadActs (slot : Word16) (s : State) : State × Reply :=
  if Config.storeSlots ≤ slot.toNat then refuse .badArg s
  else if s.scanning then refuse .busy s
  else accept (storeRecordBytes s slot.toNat) s

/-- STORE_COLLECT at its owner (R174). The number 0 is judged before the scan and a queued collect (assumption 18).
-/
def storeCollectActs (number : Word32) (s : State) : State × Reply :=
  if number.toNat = 0 then refuse .badArg s
  else if s.scanning ∨ s.srs.collecting then refuse .busy s
  else accept [] (queueJob (.collect number.toNat) s)

/-- Some slot of a sector is RESERVED. -/
def Srs.sectorReserved (r : Srs) (sector : Nat) : Bool :=
  (sectorSlotsOf sector).any (fun n => decide (r.slotState n = .reserved))

/-- The sector holds the highest seal number present (R165). -/
def Srs.sectorNewest (r : Srs) (sector : Nat) : Bool :=
  match r.highest with
  | none => false
  | some h => decide (h.2 = sector)

/-- Some VALID record of a sector is not collected. -/
def Srs.sectorUncollected (r : Srs) (sector : Nat) : Bool :=
  (sectorSlotsOf sector).any (fun n => decide (r.slotState n = .valid) && !(r.slot n).collected)

/-- STORE_ERASE at its owner (R175), in the order of that rule. -/
def storeEraseActs (sector : Byte) (s : State) : State × Reply :=
  if 64 ≤ sector.toNat then refuse .badArg s
  else if s.scanning ∨ s.srs.erasingAny then refuse .busy s
  else if s.srs.sectorReserved sector.toNat then refuse .badState s
  else if s.srs.sectorNewest sector.toNat then refuse .newestSector s
  else if s.srs.sectorUncollected sector.toNat then refuse .notCollected s
  else accept [] (queueJob (.erase sector.toNat) s)

/-! ### Meanings -/

/-- SCAN_DONE (R177). -/
def execScanDone (s : State) : Host.Outcome State Fault Refusal := .next (scanDone s)

/-- JOB_START: the head of the queue starts when no job runs (R172). -/
def execJobStart (s : State) : Host.Outcome State Fault Refusal := .next (buildDue (tryJobs s))

/-- HEADER_JOB_END (R169). -/
def execHeaderJobEnd (ok : Bool) (s : State) : Host.Outcome State Fault Refusal := .next (headerJobEnd ok s)

/-- BODY_JOB_END (R171). -/
def execBodyJobEnd (ok : Bool) (s : State) : Host.Outcome State Fault Refusal := .next (bodyJobEnd ok s)

/-- FULL_RECORD_JOB_END (R171). -/
def execFullRecordJobEnd (ok : Bool) (s : State) : Host.Outcome State Fault Refusal :=
  .next (fullRecordJobEnd ok s)

/-- COLLECT_JOB_END (R174). -/
def execCollectJobEnd (failed : List Nat) (s : State) : Host.Outcome State Fault Refusal :=
  .next (collectJobEnd failed s)

/-- ERASE_JOB_END (R176). -/
def execEraseJobEnd (ok : Bool) (s : State) : Host.Outcome State Fault Refusal := .next (eraseJobEnd ok s)

/-- STORE_STATUS (R179). -/
def execStoreStatus (tag : Byte) (s : State) : Host.Outcome State Fault Refusal :=
  .next (takeCommand tag storeStatusActs s)

/-- STORE_READ (R179). -/
def execStoreRead (tag : Byte) (slot : Word16) (s : State) : Host.Outcome State Fault Refusal :=
  .next (takeCommand tag (storeReadActs slot) s)

/-- STORE_COLLECT (R174). -/
def execStoreCollect (tag : Byte) (number : Word32) (s : State) : Host.Outcome State Fault Refusal :=
  .next (takeCommand tag (storeCollectActs number) s)

/-- STORE_ERASE (R175). -/
def execStoreErase (tag sector : Byte) (s : State) : Host.Outcome State Fault Refusal :=
  .next (takeCommand tag (storeEraseActs sector) s)

end Sys2Proof.Machine
end

