-- ==== Sys2Proof/Machine/Resets.lean ====
section
/-! DEFINITION. The resets: power-on and FULL reset (R18, R36, R56, R80, R116, R147, R164, R177, R191), and
the RUN reset (R19, R37, R57, R81, R116, R147, R173, R187). -/

namespace Sys2Proof.Machine

/-! ### Power-on and FULL reset -/

/-- Every block at its power-on values, over a store part that begins its start-up scan. What stands outside
the module stays: the strap, the levels of its lines, and the commands that wait to be taken. A frame being sent is
cut: the character on the line is completed (R144, R147; assumption 32). -/
def resetAll (srs : Srs) (s : State) : State :=
  { State.reset with
    strap := s.strap, piu := Piu.reset (s.piu.lines.map Line.level) s.piu.sync s.piu.source,
    pch := Pch.reset (s.pch.channels.map (fun c => Channel.resetWith c.onLine)), srs := srs, pending := s.pending }

/-- The contents of the store after power was lost during the running job (R177). -/
def cutContents (cut : FlashCut) (r : Srs) : List (Nat × SlotContents) :=
  match r.running with
  | none => r.contents
  | some j => (cutJob cut j r).contents

/-- POWER_ON: the running flash operation is cut, and the scan begins at once (R177). -/
def powerOn (cut : FlashCut) (s : State) : State :=
  resetAll (Srs.reset (cutContents cut s.srs)) s

/-- The store part a FULL reset leaves: with a job running it waits for its end, and keeps the queued jobs and the
reservations until then; else the scan begins at once (R177). -/
def Srs.afterFull (r : Srs) : Srs :=
  if r.running.isSome then
    { Srs.reset r.contents with reserved := r.reserved, queue := r.queue, running := r.running, phase := .waiting }
  else Srs.reset r.contents

/-- A FULL reset acts (R187): the running job runs on, and the scan waits for it. -/
def fullReset (s : State) : State := resetAll s.srs.afterFull s

/-- The cell the UP transmitter is sending is a FULL reset's answer. -/
def State.sendsFull (s : State) : Bool := s.bli.txUp.any (fun x => x.out.actsFull)

/-- FULL_RESET_ACT: the last byte of the FULL answer has been sent, which the UP transmitter must be sending
(R187). -/
def fullResetAct (s : State) : State := if s.sendsFull then fullReset s else s

/-- MODULE_RESET with the choice FULL: the answer that will act is queued, and the module turns deaf
(R187). -/
def armFull (tag : Byte) (s : State) : State :=
  { s with bli := { s.bli with
      answers := s.bli.answers ++
        [{ cell := answerCell s tag { status := .ok, bytes := [] }, actsFull := true }],
      fullPending := true } }

/-- The taking of MODULE_RESET FULL (R184, R187). -/
def moduleResetFull (tag : Byte) (s : State) : State :=
  if s.deaf then s else if s.answersFull then dropCommand s else armFull tag s

/-! ### RUN reset -/

/-- The PIU after a RUN reset (R19). -/
def runResetPiu (s : State) : State :=
  forEach allPos reloadLine { s with piu := { s.piu with monitor := .disarmed, timer := .stopped } }

/-- The PSC after a RUN reset (R57). -/
def runResetPsc (s : State) : State :=
  { abortStep s with
    psc := { (abortStep s).psc with stepState := .idle, queued := none, timerUse := .none } }

/-- The answer of a relay that a RUN reset ends: it is offered, and the channel starts nothing (R147). It carries no
reply, and so NOT_CHECKED with TRUNCATED clear (DESIGN CHOICE, assumption 38). -/
def offerAborted (p : Pos) (r : RelayRequest) (s : State) : State :=
  let a : PortAnswer := .ended r.tag .aborted [] false .notChecked
  if s.mustHold then
    holdAnswer (.channel p) ((settleOwed s).setChan p { (s.chan p).cut with state := .replyHeld a })
  else pushPortAnswer a ((settleOwed s).setChan p (s.chan p).cut)

/-- A transaction in progress ends with ABORTED (R147). A REGISTER_READ has ended with its step. -/
def abortTransaction (p : Pos) (s : State) : State :=
  match (s.chan p).transaction with
  | some { owner := .relay r, .. } => offerAborted p r (relayEffects p r.kind .aborted s)
  | some { owner := .identify _, .. } => abortIdentify p s
  | some { owner := .registerRead _ _, .. } => s.setChan p (s.chan p).cut
  | none => s

/-- A waiting relay request ends with ABORTED in its slot (R147); its flags are assumption 38's. -/
def abortWaiting (p : Pos) (s : State) : State :=
  match (s.chan p).relay with
  | .waiting r =>
    offerFromSlot p (.ended r.tag .aborted [] false .notChecked) (relayEffects p r.kind .aborted s)
  | _ => s

/-- A waiting template request is removed (R147). -/
def dropWaiting (p : Pos) (s : State) : State := s.setChan p { s.chan p with internal := none }

/-- One channel at a RUN reset (R147). That its transaction ends first, then its waiting template request and then
its waiting relay request is the model's choice (DESIGN CHOICE, assumption 20): a VOID body of that relay is formed
when the IDENTIFY work has ended (assumption 35). -/
def runResetChannel (p : Pos) (s : State) : State :=
  abortWaiting p (dropWaiting p (abortIdentify p (abortTransaction p s)))

/-- A RUN reset at every block (R187): the steps first, then the channels in ascending order (assumption 20). -/
def runReset (s : State) : State := runResetPiu (forEach allPos runResetChannel (runResetPsc s))

/-- The taking of MODULE_RESET RUN: the answer is placed ahead of those of the relays it aborts (R187). -/
def moduleResetRun (via : Via) (s : State) : State :=
  match via with
  | .addressed tag =>
    if s.deaf then s
    else if s.answersFull then dropCommand s
    else buildDue (runReset (pushAnswer tag { status := .ok, bytes := [] } s))
  | .broadcast => if s.deaf then s else buildDue (runReset s)

/-! ### Meanings -/

/-- POWER_ON (R18). -/
def execPowerOn (cut : FlashCut) (s : State) : Host.Outcome State Fault Refusal := .next (powerOn cut s)

/-- FULL_RESET_ACT (R187). -/
def execFullResetAct (s : State) : Host.Outcome State Fault Refusal := .next (fullResetAct s)

/-- MODULE_RESET RUN (R187). -/
def execModuleResetRun (via : Via) (s : State) : Host.Outcome State Fault Refusal := .next (moduleResetRun via s)

/-- MODULE_RESET FULL (R187). -/
def execModuleResetFull (tag : Byte) (s : State) : Host.Outcome State Fault Refusal :=
  .next (moduleResetFull tag s)

end Sys2Proof.Machine
end

