-- ==== Sys2Proof/Machine/Cells.lean ====
section
/-! DEFINITION. The receivers, the forwarding paths and the transmitters of the bench link (11.1, 11.2), and
the taking of the commands that cells carry (R184, R186). -/

namespace Sys2Proof.Machine

/-! ### Receivers (R181) -/

/-- The cell of received bytes, whose header is in its first five. -/
def cellOf (l : List Byte) : Cell :=
  { dest := byteAt l 0, source := byteAt l 1, kind := byteAt l 2, tag := byteAt l 3,
    payload := (l.drop 5).take (byteAt l 4).toNat }

/-- The header of received bytes is one a cell may have (R181). -/
def headerOk (l : List Byte) : Bool :=
  decide ((byteAt l 4).toNat ≤ 250) && decide ((byteAt l 0).toNat ≤ 15) && decide ((byteAt l 2).toNat ≤ 0xE1)

/-- The bytes of a whole cell after its sync: header, payload and CRC. -/
def cellLength (l : List Byte) : Nat := 7 + (byteAt l 4).toNat

/-- The received CRC is the computed one. -/
def crcHolds (l : List Byte) : Bool := decide ((cellOf l).covered ++ (cellOf l).crc = l)

/-- What a receiver finds at a byte in CELL: a header that is none is an error as soon as it is in
(assumption 13), and a whole cell is valid or an error. -/
def cellEvent (l : List Byte) : Receiver × Option (Option Cell) :=
  if l.length < 5 then (.cell l, none)
  else if !headerOk l then (.hunt, some none)
  else if l.length < cellLength l then (.cell l, none)
  else if crcHolds l then (.hunt, some (some (cellOf l)))
  else (.hunt, some none)

/-- A receiver after one data byte: nothing, an error, or a valid cell (R181). -/
def Receiver.take (r : Receiver) (b : Byte) : Receiver × Option (Option Cell) :=
  match r with
  | .hunt => (if b = syncByte then .cell [] else .hunt, none)
  | .cell l => cellEvent (l ++ [b])

/-- The UP receiver replaced. -/
def setRxUp (r : Receiver) (s : State) : State := { s with bli := { s.bli with rxUp := r } }

/-- The DOWN receiver replaced. -/
def setRxDown (r : Receiver) (s : State) : State := { s with bli := { s.bli with rxDown := r } }

/-- A link error at UP. -/
def upError (s : State) : State := { s with bli := { s.bli with upErrors := tallyUp s.bli.upErrors } }

/-- A link error at DOWN. -/
def downError (s : State) : State := { s with bli := { s.bli with downErrors := tallyUp s.bli.downErrors } }

/-- The kinds ANSWER and REPORT. -/
def Cell.upward (c : Cell) : Bool := decide (c.kind = answerKind) || decide (c.kind = reportKind)

/-- A null cell (R181). -/
def Cell.isNull (c : Cell) : Bool := decide (c.dest = 0) && !c.upward

/-! ### Commands in cells (R184, R186) -/

/-- The state an outcome goes on to. -/
def nextOr (s : State) : Host.Outcome State Fault Refusal → State
  | .next t => t
  | _ => s

/-- A decoded command at its meaning. What no cell carries changes nothing. -/
def runCommand (i : Instr) (s : State) : State :=
  match i with
  | .unknownKind tag => nextOr s (execUnknownKind tag s)
  | .statusRead tag => nextOr s (execStatusRead tag s)
  | .settingsWrite tag limit reports => nextOr s (execSettingsWrite tag limit reports s)
  | .settingsRead tag => nextOr s (execSettingsRead tag s)
  | .moduleResetRun via => nextOr s (execModuleResetRun via s)
  | .moduleResetFull tag => nextOr s (execModuleResetFull tag s)
  | .profileWrite tag r => nextOr s (execProfileWrite tag r s)
  | .profileRead tag => nextOr s (execProfileRead tag s)
  | .templateWrite tag which r => nextOr s (execTemplateWrite tag which r s)
  | .templateRead tag which => nextOr s (execTemplateRead tag which s)
  | .identify tag mask => nextOr s (execIdentify tag mask s)
  | .ruleWrite tag index r => nextOr s (execRuleWrite tag index r s)
  | .ruleRead tag index => nextOr s (execRuleRead tag index s)
  | .planWrite tag slot r => nextOr s (execPlanWrite tag slot r s)
  | .planRead tag slot => nextOr s (execPlanRead tag slot s)
  | .planClear tag slot => nextOr s (execPlanClear tag slot s)
  | .stepRun via slot run => nextOr s (execStepRun via slot run s)
  | .stepQueue via slot run => nextOr s (execStepQueue via slot run s)
  | .stepAbort via => nextOr s (execStepAbort via s)
  | .positionLoad tag r => nextOr s (execPositionLoad tag r s)
  | .positionClear tag position => nextOr s (execPositionClear tag position s)
  | .positionIncludeOn tag position => nextOr s (execPositionIncludeOn tag position s)
  | .positionIncludeOff tag position => nextOr s (execPositionIncludeOff tag position s)
  | .positionRead tag position => nextOr s (execPositionRead tag position s)
  | .resultRead tag position stepNo => nextOr s (execResultRead tag position stepNo s)
  | .correctionCompute tag mask a b => nextOr s (execCorrectionCompute tag mask a b s)
  | .verifyEvaluate tag mask steps => nextOr s (execVerifyEvaluate tag mask steps s)
  | .port tag position frame => nextOr s (execPort tag position frame s)
  | .storeStatus tag => nextOr s (execStoreStatus tag s)
  | .storeRead tag slot => nextOr s (execStoreRead tag slot s)
  | .storeCollect tag number => nextOr s (execStoreCollect tag number s)
  | .storeErase tag sector => nextOr s (execStoreErase tag sector s)
  | .powerOn _ | .fullResetAct | .scanDone | .candidateEdge _ | .referenceEdge _ _ | .refLost | .syncEdge
  | .sourceReadyAssertion | .triggerDelayExpiry | .windowEnd | .settleExpiry | .gateTimeout _
  | .transactionStart _ | .sendingEnd _ | .firstStartBit _ | .replyTimeout _ | .replyEnd _ _
  | .heldAnswerTaken | .jobStart | .headerJobEnd _ | .bodyJobEnd _ | .fullRecordJobEnd _ | .collectJobEnd _
  | .eraseJobEnd _ | .upCellReceived _ | .downCellReceived _ | .downForwardSend | .upCellBoundary
  | .reportBuild | .sourceReadyFall | .syncInFall | .unselectedTransition _ | .fillBeforeCellComplete _ => s

/-- A command whose payload does not fit its kind: the drop check of its kind, and BAD_ARG (R184). -/
def takeMisfit (kind tag : Byte) (s : State) : State :=
  if kind.toNat = 0x40 ∧ s.portFull ∧ !s.deaf then dropCommand s else takeCommand tag (refuse .badArg) s

/-- A cell consumed under the module's own address (R184). -/
def takeAddressed (c : Cell) (s : State) : State :=
  if c.upward then s
  else
    match decodeCommand c.kind c.tag c.payload with
    | some i => runCommand i s
    | none => takeMisfit c.kind c.tag s

/-- A broadcast cell at the module (R186). -/
def takeBroadcast (c : Cell) (s : State) : State :=
  match decodeBroadcast c.kind c.payload with
  | some i => runCommand i s
  | none => s

/-! ### Forwarding (R182) -/

/-- A cell for the modules below joins the DOWN transmitter's buffer (R182; assumption 14). -/
def forwardDown (c : Cell) (s : State) : State :=
  { s with bli := { s.bli with downBuffer := s.bli.downBuffer ++ [c] } }

/-- A cell from the modules below enters the forward FIFO, or is dropped and counted (R182). -/
def forwardUp (c : Cell) (s : State) : State :=
  if s.bli.forward.length < Config.forwardPlaces then
    { s with bli := { s.bli with forward := s.bli.forward ++ [c] } }
  else { s with bli := { s.bli with forwardDrops := tallyUp s.bli.forwardDrops } }

/-- A valid cell received at UP, by its destination (R182). -/
def upCell (c : Cell) (s : State) : State :=
  if c.dest = 0 then s
  else if s.strapped ∧ c.dest = s.address then takeAddressed c s
  else if c.dest = 15 then takeBroadcast c (forwardDown c s)
  else forwardDown c s

/-- A valid cell received at DOWN (R182). -/
def downCell (c : Cell) (s : State) : State := if c.isNull then s else forwardUp c s

/-- What a receiver found, at UP. -/
def upEvent (e : Option (Option Cell)) (s : State) : State :=
  match e with
  | none => s
  | some none => upError s
  | some (some c) => upCell c s

/-- What a receiver found, at DOWN. -/
def downEvent (e : Option (Option Cell)) (s : State) : State :=
  match e with
  | none => s
  | some none => downError s
  | some (some c) => downCell c s

/-- One data character at UP. -/
def upChar (s : State) (b : Byte) : State :=
  upEvent (s.bli.rxUp.take b).2 (setRxUp (s.bli.rxUp.take b).1 s)

/-- One data character at DOWN. -/
def downChar (s : State) (b : Byte) : State :=
  downEvent (s.bli.rxDown.take b).2 (setRxDown (s.bli.rxDown.take b).1 s)

/-- A run of data characters at UP. -/
def upCellReceived (chars : List Byte) (s : State) : State := chars.foldl upChar s

/-- A run of data characters at DOWN. -/
def downCellReceived (chars : List Byte) (s : State) : State := chars.foldl downChar s

/-- The receiver is in CELL. -/
def Receiver.inCell : Receiver → Bool
  | .hunt => false
  | .cell _ => true

/-- A fill character at a port: in CELL the cell is discarded and counted (R181). -/
def fillChar (port : LinkPort) (s : State) : State :=
  match port with
  | .up => if s.bli.rxUp.inCell then upError (setRxUp .hunt s) else s
  | .down => if s.bli.rxDown.inCell then downError (setRxDown .hunt s) else s

/-! ### Transmitters (R182, R183) -/

/-- The microseconds a cell takes to send (11.1). -/
def cellMicros (c : Cell) : Nat := Config.linkCharMicros * (8 + c.payload.length)

/-- A transmitter that starts a cell. -/
def sendingOf (o : OutCell) : Sending := { out := o, left := cellMicros o.cell }

/-- A forwarded cell as it is sent. -/
def plainCell (c : Cell) : OutCell := { cell := c, actsFull := false }

/-- The UP transmitter's choice at a boundary: forward FIFO, answer queue, report queue, fill (R183). -/
def startUp (s : State) : State :=
  match s.bli.forward, s.bli.answers, s.bli.reports with
  | c :: rest, _, _ => { s with bli := { s.bli with txUp := some (sendingOf (plainCell c)), forward := rest } }
  | [], a :: rest, _ => { s with bli := { s.bli with txUp := some (sendingOf a), answers := rest } }
  | [], [], c :: rest =>
    { s with bli := { s.bli with txUp := some (sendingOf (plainCell c)), reports := rest } }
  | [], [], [] => { s with bli := { s.bli with txUp := none } }

/-- UP_CELL_BOUNDARY: the cell being sent has ended, which is where a FULL reset acts; else the next cell starts, and
a place of the report queue that this frees takes a report that waits (R183, R187, R190). -/
def upCellBoundary (s : State) : State := if s.sendsFull then fullReset s else buildDue (startUp s)

/-- DOWN_FORWARD_SEND: the DOWN transmitter starts the next forwarded cell (R182). -/
def downForwardSend (s : State) : State :=
  match s.bli.downBuffer with
  | c :: rest =>
    { s with bli := { s.bli with txDown := some (sendingOf (plainCell c)), downBuffer := rest } }
  | [] => { s with bli := { s.bli with txDown := none } }

/-! ### Meanings -/

/-- UP_CELL_RECEIVED (R182). -/
def execUpCellReceived (chars : List Byte) (s : State) : Host.Outcome State Fault Refusal :=
  .next (upCellReceived chars s)

/-- DOWN_CELL_RECEIVED (R182). -/
def execDownCellReceived (chars : List Byte) (s : State) : Host.Outcome State Fault Refusal :=
  .next (downCellReceived chars s)

/-- DOWN_FORWARD_SEND (R182). -/
def execDownForwardSend (s : State) : Host.Outcome State Fault Refusal := .next (downForwardSend s)

/-- UP_CELL_BOUNDARY (R183). -/
def execUpCellBoundary (s : State) : Host.Outcome State Fault Refusal := .next (upCellBoundary s)

/-- FILL_BEFORE_CELL_COMPLETE (R181). -/
def execFillBeforeCellComplete (port : LinkPort) (s : State) : Host.Outcome State Fault Refusal :=
  .next (fillChar port s)

end Sys2Proof.Machine
end

