-- ==== Sys2Proof/Machine/Tick.lean ====
section
/-! DEFINITION. What the module does when no command waits: an enabled act of its own, or the passing of one
microsecond (R1, R7, R11, R13, R72, R133, R139; assumption 2). -/

namespace Sys2Proof.Machine

/-! ### The passing of a microsecond -/

/-- A transmitter with one microsecond less to go. -/
def Sending.pass (x : Sending) : Sending := { x with left := x.left - 1 }

/-- A channel whose line has sent for one microsecond more (R133, R144). -/
def Channel.passMicro (c : Channel) : Channel := { c with wire := passWire c.wire }

/-- A channel that has waited one more millisecond tick (R139). -/
def Channel.passMilli (c : Channel) : Channel :=
  match c.state with
  | .awaitReply t waited => { c with state := .awaitReply t (waited + 1) }
  | _ => c

/-- The edge select picks a change to a level (R4). -/
def picks (e : EdgeSelect) (v : Bool) : Bool :=
  match e with
  | .rising => v
  | .falling => !v
  | .both => true

/-- One sample of a meter line (R1, R2, R4). -/
def sampleLine (p : Pos) (s : State) : State :=
  let set := (s.pos p).line
  let l := (s.line p).shift set.filterOn ((s.line p).level ^^ set.inverted)
  if l.filtered ≠ (s.line p).filtered ∧ picks set.edge l.filtered then takeCandidate p (s.setLine p l)
  else s.setLine p l

/-- The monitor one millisecond later (R11). -/
def Monitor.pass : Monitor → Monitor
  | .disarmed => .disarmed
  | .armed quiet => .armed (quiet + 1)

/-- The window timer at a millisecond tick (R13). -/
def tickTimer (s : State) : State :=
  if s.piu.timer.counting ∧ s.piu.timer.clock = .ms then advanceTimer s else s

/-- A millisecond tick (R7, R11, R13, R139). -/
def milliTick (s : State) : State :=
  tickTimer
    { s with
      piu := { s.piu with millis := s.piu.millis + 1, monitor := s.piu.monitor.pass },
      pch := { s.pch with channels := s.pch.channels.map Channel.passMilli } }

/-- The microsecond count and what is being sent, one microsecond later. -/
def microTick (s : State) : State :=
  { s with
    piu := { s.piu with micros := s.piu.micros + 1 },
    pch := { s.pch with channels := s.pch.channels.map Channel.passMicro },
    bli := { s.bli with txUp := s.bli.txUp.map Sending.pass, txDown := s.bli.txDown.map Sending.pass } }

/-- One microsecond passes; every thousandth is a millisecond tick (assumption 2). The lines are sampled within it, in
ascending position order, where R101 leaves the order of the candidate edges of one instant open (R4). An edge so
sampled is taken before what the tick has made due: a gate timeout (R73), a trigger delay whose expiry brings RUNNING
(R60), a window end (R102). Both orders are the model's choice (DESIGN CHOICE, assumption 34). -/
def advance (s : State) : State :=
  let t := microTick s
  forEach allPos sampleLine (if t.piu.micros % 1000 = 0 then milliTick t else t)

/-! ### Acts that are due -/

/-- The gate timeout of a position has run out (R72). -/
def gateTimeoutDue (s : State) (p : Pos) : Bool :=
  match s.gate p, s.activeRecord with
  | some g, some r =>
    decide (g.state ≠ .done) && decide (r.timeout.toNat ≤ (s.piu.millis - g.timeoutStart).toNat)
  | _, _ => false

/-- The quiet time has reached its limit (R11). -/
def refLostDue (s : State) : Bool :=
  match s.piu.monitor with
  | .disarmed => false
  | .armed quiet => decide (Config.quietLimit ≤ quiet)

/-- The last stop bit of a channel's frame has been sent (R138). -/
def sendingEndDue (s : State) (p : Pos) : Bool :=
  match (s.chan p).state with
  | .sending _ => (s.chan p).wire.isEmpty
  | _ => false

/-- The reply timeout of a channel has run out (R139). -/
def replyTimeoutDue (s : State) (p : Pos) : Bool :=
  match (s.chan p).state with
  | .awaitReply t waited => decide (t.timeout ≤ waited)
  | _ => false

/-- An IDLE channel has a request it can start (R142). -/
def startDue (s : State) (p : Pos) : Bool :=
  (s.chan p).isIdle &&
    ((s.chan p).internal.isSome ||
      match (s.chan p).relay with
      | .waiting r => r.sendable
      | _ => false)

/-- An expiry of this use has been raised (R13). -/
def expiryDue (s : State) (use : TimerUse) : Bool := s.psc.raised.any (fun e => decide (e.1 = use))

/-- A job can start (R172). -/
def jobDue (s : State) : Bool :=
  decide (s.srs.phase = .over) && s.srs.running.isNone && !s.srs.queue.isEmpty

/-- The UP transmitter has sent a cell, or sends fill while a cell waits (R183). -/
def upDue (s : State) : Bool :=
  match s.bli.txUp with
  | some x => decide (x.left = 0)
  | none => !s.bli.forward.isEmpty || !s.bli.answers.isEmpty || !s.bli.reports.isEmpty

/-- The DOWN transmitter has sent a cell, or sends fill while a cell waits (R182). -/
def downDue (s : State) : Bool :=
  match s.bli.txDown with
  | some x => decide (x.left = 0)
  | none => !s.bli.downBuffer.isEmpty

/-- A held answer has a place to take (R185). -/
def heldDue (s : State) : Bool := !s.bli.held.isEmpty && !s.answersFull

/-- One act in a list, where it is due. -/
def dueIf (b : Bool) (i : Instr) : List Instr := if b then [i] else []

/-- The acts of the module's own that are due. -/
def dueActs (s : State) : List Instr :=
  allPos.flatMap (fun p => dueIf (gateTimeoutDue s p) (.gateTimeout p)) ++
    allPos.flatMap (fun p => dueIf (sendingEndDue s p) (.sendingEnd p)) ++
    allPos.flatMap (fun p => dueIf (replyTimeoutDue s p) (.replyTimeout p)) ++
    allPos.flatMap (fun p => dueIf (startDue s p) (.transactionStart p)) ++
    dueIf (refLostDue s) .refLost ++ dueIf (expiryDue s .triggerDelay) .triggerDelayExpiry ++
    dueIf (expiryDue s .window) .windowEnd ++ dueIf (expiryDue s .settle) .settleExpiry ++
    dueIf (jobDue s) .jobStart ++ dueIf (upDue s) .upCellBoundary ++ dueIf (downDue s) .downForwardSend ++
    dueIf (heldDue s) .heldAnswerTaken ++ dueIf s.reportDue .reportBuild

/-- An act of the module's own, at its meaning. What comes from outside changes nothing here. -/
def runAct (i : Instr) (s : State) : State :=
  match i with
  | .gateTimeout p => nextOr s (execGateTimeout p s)
  | .sendingEnd p => nextOr s (execSendingEnd p s)
  | .replyTimeout p => nextOr s (execReplyTimeout p s)
  | .transactionStart p => nextOr s (execTransactionStart p s)
  | .refLost => nextOr s (execRefLost s)
  | .triggerDelayExpiry => nextOr s (execTriggerDelayExpiry s)
  | .windowEnd => nextOr s (execWindowEnd s)
  | .settleExpiry => nextOr s (execSettleExpiry s)
  | .jobStart => nextOr s (execJobStart s)
  | .upCellBoundary => nextOr s (execUpCellBoundary s)
  | .downForwardSend => nextOr s (execDownForwardSend s)
  | .heldAnswerTaken => nextOr s (execHeldAnswerTaken s)
  | .reportBuild => nextOr s (execReportBuild s)
  | .powerOn _ | .fullResetAct | .scanDone | .candidateEdge _ | .referenceEdge _ _ | .syncEdge
  | .sourceReadyAssertion | .firstStartBit _ | .replyEnd _ _ | .headerJobEnd _ | .bodyJobEnd _
  | .fullRecordJobEnd _ | .collectJobEnd _ | .eraseJobEnd _ | .upCellReceived _ | .downCellReceived _
  | .unknownKind _ | .statusRead _ | .settingsWrite _ _ _ | .settingsRead _ | .moduleResetRun _
  | .moduleResetFull _ | .profileWrite _ _ | .profileRead _ | .templateWrite _ _ _ | .templateRead _ _
  | .identify _ _ | .ruleWrite _ _ _ | .ruleRead _ _ | .planWrite _ _ _ | .planRead _ _ | .planClear _ _
  | .stepRun _ _ _ | .stepQueue _ _ _ | .stepAbort _ | .positionLoad _ _ | .positionClear _ _
  | .positionIncludeOn _ _ | .positionIncludeOff _ _ | .positionRead _ _ | .resultRead _ _ _
  | .correctionCompute _ _ _ _ | .verifyEvaluate _ _ _ | .port _ _ _ | .storeStatus _ | .storeRead _ _
  | .storeCollect _ _ | .storeErase _ _ | .sourceReadyFall | .syncInFall | .unselectedTransition _
  | .fillBeforeCellComplete _ => s

/-- The act taken among those that are due: with one there is no choice, and else the part does not fix it
(assumption 3). -/
def chooseAct (s : State) (l : List Instr) : Option Instr :=
  match l with
  | [i] => some i
  | l => l[Config.meetingOrder s.piu.micros l.length % l.length]?

/-- What the module does when no command waits (assumption 2). -/
def idleStep (s : State) : State :=
  match chooseAct s (dueActs s) with
  | some i => runAct i s
  | none => advance s

end Sys2Proof.Machine
end

