-- ==== Sys2Proof/Machine/Dispatch.lean ====
section
/-! DEFINITION. The meaning of each command and event: one arm for each constructor of `Instr`. -/

namespace Sys2Proof.Machine

def exec (i : Instr) (s : State) : Host.Outcome State Fault Refusal :=
  match i with
  | .powerOn cut => Sys2Proof.Machine.execPowerOn cut s
  | .fullResetAct => Sys2Proof.Machine.execFullResetAct s
  | .scanDone => Sys2Proof.Machine.execScanDone s
  | .candidateEdge p => Sys2Proof.Machine.execCandidateEdge p s
  | .referenceEdge edge gapNs => Sys2Proof.Machine.execReferenceEdge edge gapNs s
  | .refLost => Sys2Proof.Machine.execRefLost s
  | .syncEdge => Sys2Proof.Machine.execSyncEdge s
  | .sourceReadyAssertion => Sys2Proof.Machine.execSourceReadyAssertion s
  | .triggerDelayExpiry => Sys2Proof.Machine.execTriggerDelayExpiry s
  | .windowEnd => Sys2Proof.Machine.execWindowEnd s
  | .settleExpiry => Sys2Proof.Machine.execSettleExpiry s
  | .gateTimeout p => Sys2Proof.Machine.execGateTimeout p s
  | .transactionStart p => Sys2Proof.Machine.execTransactionStart p s
  | .sendingEnd p => Sys2Proof.Machine.execSendingEnd p s
  | .firstStartBit p => Sys2Proof.Machine.execFirstStartBit p s
  | .replyTimeout p => Sys2Proof.Machine.execReplyTimeout p s
  | .replyEnd p chars => Sys2Proof.Machine.execReplyEnd p chars s
  | .heldAnswerTaken => Sys2Proof.Machine.execHeldAnswerTaken s
  | .jobStart => Sys2Proof.Machine.execJobStart s
  | .headerJobEnd ok => Sys2Proof.Machine.execHeaderJobEnd ok s
  | .bodyJobEnd ok => Sys2Proof.Machine.execBodyJobEnd ok s
  | .fullRecordJobEnd ok => Sys2Proof.Machine.execFullRecordJobEnd ok s
  | .collectJobEnd failed => Sys2Proof.Machine.execCollectJobEnd failed s
  | .eraseJobEnd ok => Sys2Proof.Machine.execEraseJobEnd ok s
  | .upCellReceived chars => Sys2Proof.Machine.execUpCellReceived chars s
  | .downCellReceived chars => Sys2Proof.Machine.execDownCellReceived chars s
  | .downForwardSend => Sys2Proof.Machine.execDownForwardSend s
  | .upCellBoundary => Sys2Proof.Machine.execUpCellBoundary s
  | .reportBuild => Sys2Proof.Machine.execReportBuild s
  | .unknownKind tag => Sys2Proof.Machine.execUnknownKind tag s
  | .statusRead tag => Sys2Proof.Machine.execStatusRead tag s
  | .settingsWrite tag limit reports => Sys2Proof.Machine.execSettingsWrite tag limit reports s
  | .settingsRead tag => Sys2Proof.Machine.execSettingsRead tag s
  | .moduleResetRun via => Sys2Proof.Machine.execModuleResetRun via s
  | .moduleResetFull tag => Sys2Proof.Machine.execModuleResetFull tag s
  | .profileWrite tag r => Sys2Proof.Machine.execProfileWrite tag r s
  | .profileRead tag => Sys2Proof.Machine.execProfileRead tag s
  | .templateWrite tag which r => Sys2Proof.Machine.execTemplateWrite tag which r s
  | .templateRead tag which => Sys2Proof.Machine.execTemplateRead tag which s
  | .identify tag mask => Sys2Proof.Machine.execIdentify tag mask s
  | .ruleWrite tag index r => Sys2Proof.Machine.execRuleWrite tag index r s
  | .ruleRead tag index => Sys2Proof.Machine.execRuleRead tag index s
  | .planWrite tag slot r => Sys2Proof.Machine.execPlanWrite tag slot r s
  | .planRead tag slot => Sys2Proof.Machine.execPlanRead tag slot s
  | .planClear tag slot => Sys2Proof.Machine.execPlanClear tag slot s
  | .stepRun via slot run => Sys2Proof.Machine.execStepRun via slot run s
  | .stepQueue via slot run => Sys2Proof.Machine.execStepQueue via slot run s
  | .stepAbort via => Sys2Proof.Machine.execStepAbort via s
  | .positionLoad tag r => Sys2Proof.Machine.execPositionLoad tag r s
  | .positionClear tag position => Sys2Proof.Machine.execPositionClear tag position s
  | .positionIncludeOn tag position => Sys2Proof.Machine.execPositionIncludeOn tag position s
  | .positionIncludeOff tag position => Sys2Proof.Machine.execPositionIncludeOff tag position s
  | .positionRead tag position => Sys2Proof.Machine.execPositionRead tag position s
  | .resultRead tag position stepNo => Sys2Proof.Machine.execResultRead tag position stepNo s
  | .correctionCompute tag mask a b => Sys2Proof.Machine.execCorrectionCompute tag mask a b s
  | .verifyEvaluate tag mask steps => Sys2Proof.Machine.execVerifyEvaluate tag mask steps s
  | .port tag position frame => Sys2Proof.Machine.execPort tag position frame s
  | .storeStatus tag => Sys2Proof.Machine.execStoreStatus tag s
  | .storeRead tag slot => Sys2Proof.Machine.execStoreRead tag slot s
  | .storeCollect tag number => Sys2Proof.Machine.execStoreCollect tag number s
  | .storeErase tag sector => Sys2Proof.Machine.execStoreErase tag sector s
  | .sourceReadyFall => Sys2Proof.Machine.execSourceReadyFall s
  | .syncInFall => Sys2Proof.Machine.execSyncInFall s
  | .unselectedTransition p => Sys2Proof.Machine.execUnselectedTransition p s
  | .fillBeforeCellComplete port => Sys2Proof.Machine.execFillBeforeCellComplete port s

end Sys2Proof.Machine
end

