-- ==== Sys2Proof/Safety.lean ====
section
/-! DEFINITION. What holds in every state a run reaches: the bounds and relations the spec states for the
whole machine. Each is a property of any state, and claims say that every step keeps it. -/

namespace Sys2Proof.Safety

open Sys2Proof.Machine

/-- The store and its reservations are in canonical form. -/
def StoreCanonical (s : State) : Prop :=
  Table.wf SlotContents.erased s.srs.contents = true ∧ Table.wf none s.srs.reserved = true

/-- The queues of the bench link hold no more than R184, R182 and R189 give them. -/
def QueuesBounded (s : State) : Prop :=
  s.bli.answers.length ≤ 8 ∧ s.bli.reports.length ≤ 16 ∧ s.bli.forward.length ≤ 4 ∧ s.bli.sealDone.length ≤ 24

/-- The tallies of the bench link hold at 65,535 (R181, R182, R184, R189). -/
def TalliesHeld (s : State) : Prop :=
  s.bli.upErrors ≤ 65535 ∧ s.bli.downErrors ≤ 65535 ∧ s.bli.forwardDrops ≤ 65535 ∧
    s.bli.commandDrops ≤ 65535 ∧ s.bli.sealDrops ≤ 65535

/-- A step is active exactly in the active step states, and without one no position is running (R41). -/
def StepsConsistent (s : State) : Prop :=
  s.stepActive = s.psc.active.isSome ∧ (s.psc.active = none → s.psc.running = [])

/-- The trim limit is one of 1..7 (R125). -/
def TrimLimitLegal (s : State) : Prop := 1 ≤ s.pt.trimLimit ∧ s.pt.trimLimit ≤ 7

/-- A pending correction holds words within the ranges of the position's widths (R122). -/
def correctionFits (r : PositionRecord) : Prop :=
  ∀ c, r.correction = some c →
    ∃ m, r.meter = some m ∧ inWidth m.gainWidth c.gain = true ∧
      ∀ w, c.phase = some w → inWidth m.phaseWidth w = true

/-- Every pending correction fits (R122). -/
def CorrectionsFit (s : State) : Prop := ∀ p, correctionFits (s.pos p)

/-- The reject tallies hold at 255 (R6), and the reference counts at their limit (R9). -/
def CountsHeld (s : State) : Prop :=
  (∀ p, (s.line p).tally ≤ 255) ∧ ∀ p g, s.gate p = some g → g.m ≤ 4294967295

/-- The value at least two of three samples have (R2). -/
def twoOfThree (a b c : Bool) : Bool := decide (2 ≤ [a, b, c].count true)

/-- The filtered value of a line is what its settings make of its history: with the filter on the majority of the
three samples, with it off the newest (R2, R3). -/
def filterFits (set : LineSettings) (l : Line) : Prop :=
  l.filtered = if set.filterOn then twoOfThree l.oldest l.middle l.newest else l.newest

/-- Every line's filtered value fits its history (R2, R3). -/
def FiltersFit (s : State) : Prop := ∀ p, filterFits (s.pos p).line (s.line p)

/-- All of these together. -/
structure Invariant (s : State) : Prop where
  store       : StoreCanonical s
  queues      : QueuesBounded s
  tallies     : TalliesHeld s
  steps       : StepsConsistent s
  trimLimit   : TrimLimitLegal s
  corrections : CorrectionsFit s
  counts      : CountsHeld s
  filters     : FiltersFit s

/-! ### The conditions claims are made under, and the states they speak of -/

/-- The module takes cells: its strap names a module and no FULL reset waits for its answer (section 6,
R187). -/
def Awake (s : State) : Prop := s.strap ≠ 0 ∧ s.strap ≠ 15 ∧ s.bli.fullPending = false

/-- The module takes an addressed command: it takes cells, and its answer queue has room (R184). -/
def Ready (s : State) : Prop := Awake s ∧ s.bli.answers.length < 8

/-- The ANSWER cell of a module: destination 0, the module's address as source, kind E0h (R183). -/
def answerTo (s : State) (tag : Byte) (payload : List Byte) : Cell :=
  { dest := 0, source := BitVec.ofNat 8 s.strap.toNat, kind := 0xE0, tag := tag, payload := payload }

/-- The state with one answer more at the tail of the answer queue (R184). -/
def answered (tag : Byte) (payload : List Byte) (s : State) : State :=
  { s with bli := { s.bli with answers := s.bli.answers ++ [{ cell := answerTo s tag payload, actsFull := false }] } }

/-- The module takes a command by the way it came: an addressed one needs room for its answer, a broadcast does
not (R184, R186). -/
def Takes (via : Via) (s : State) : Prop :=
  match via with
  | .addressed _ => Ready s
  | .broadcast => Awake s

/-- The answer to a command by the way it came: a broadcast gets none (R186). -/
def answeredVia (via : Via) (payload : List Byte) (s : State) : State :=
  match via with
  | .addressed tag => answered tag payload s
  | .broadcast => s

/-- A field of a payload: `n` bytes from an offset (11.7). -/
def field (l : List Byte) (offset n : Nat) : List Byte := (l.drop offset).take n

/-- Window clock and window length of a step record: MS, or REF/K with K of 1..65,536, and a length of at
least 1 (3.1, R39). -/
def WindowLegal (r : StepRecord) : Prop :=
  (r.clock = 0 ∨ (r.clock = 1 ∧ 1 ≤ r.divisor.toNat ∧ r.divisor.toNat ≤ 65536)) ∧ 1 ≤ r.window.toNat

/-- Cref, reference edge and the limits L and U of an ERROR or REGISTER step (3.1, R39). -/
def LimitsLegal (r : StepRecord) : Prop :=
  1 ≤ r.cref.toNat ∧ r.cref.toNat ≤ 4000000000 ∧ r.refEdge.toNat ≤ 1 ∧
    -999999 ≤ r.lower.toInt ∧ r.lower.toInt ≤ r.upper.toInt ∧ r.upper.toInt ≤ 999999

/-- The gate fields of an ERROR step (3.1, R39). -/
def GatesLegal (r : StepRecord) : Prop :=
  ((r.gateMode = 0 ∧ 1 ≤ r.gateArg.toNat ∧ r.gateArg.toNat ≤ 65535) ∨
    (r.gateMode = 1 ∧ 1 ≤ r.gateArg.toNat ∧ r.gateArg.toNat ≤ 4000000000)) ∧
    1 ≤ r.gates.toNat ∧ r.gates.toNat ≤ 16 ∧ r.warmUp.toNat ≤ 3 ∧ r.extra.toNat ≤ 8 ∧
    r.spread.toNat ≤ 1999998 ∧ 100 ≤ r.timeout.toNat ∧ r.timeout.toNat ≤ 3600000 ∧
    -5000 ≤ r.tangent.toInt ∧ r.tangent.toInt ≤ 5000

/-- A step record whose used fields lie in the ranges of 3.1 and meet the conditions of R39. The fields a kind
does not use are not judged (R38). -/
def StepLegal (r : StepRecord) : Prop :=
  r.trigger.toNat ≤ 2 ∧
    match r.kind.toNat with
    | 0 => LimitsLegal r ∧ GatesLegal r
    | 1 => WindowLegal r ∧ r.allowance.toNat ≤ 15
    | 2 => WindowLegal r
    | 3 => LimitsLegal r ∧ WindowLegal r ∧ r.clock = 1 ∧ 1 ≤ r.unit.toNat ∧ r.unit.toNat ≤ 1000000 ∧
        1 ≤ r.digits.toNat ∧ r.digits.toNat ≤ 12
    | _ => False

/-- The slot holds the active step or the queued step (R38, R40). -/
def SlotProtected (s : State) (n : Fin 32) : Prop :=
  (∃ r, s.psc.active = some r ∧ r.slot = n) ∨ (∃ r, s.psc.queued = some r ∧ r.slot = n)

/-- A port profile whose fields lie in the ranges of 8.1 (R132). -/
def ProfileLegal (r : ProfileRecord) : Prop :=
  r.divisor.toNat ≤ 4095 ∧ (r.dataBits = 7 ∨ r.dataBits = 8) ∧ r.parity.toNat ≤ 2 ∧ r.stopBits = 1 ∧
    11 ≤ r.gap.toNat ∧ r.gap.toNat ≤ 1000 ∧ r.codeAt.toNat ≤ 62 ∧ r.checksum.toNat ≤ 3 ∧ r.start.toNat ≤ 15

/-- A template that a write of template `which` may carry: an empty body is not judged, and else body, timeout,
extraction length and encoding lie in the ranges of 8.3 (R136). -/
def TemplateLegal (which : Byte) (r : TemplateRecord) : Prop :=
  r.body = [] ∨
    (r.body.length ≤ 62 ∧ 10 ≤ r.timeout.toNat ∧ r.timeout.toNat ≤ 2550 ∧ 1 ≤ r.length.toNat ∧
      r.length.toNat ≤ 16 ∧
      ((which = 0 ∧ r.encoding = 0) ∨ (which = 1 ∧ 1 ≤ r.encoding.toNat ∧ r.encoding.toNat ≤ 3)))

/-- The stored profile equals the one a record carries, field by field (8.1). -/
structure ProfileIs (f : Profile) (r : ProfileRecord) : Prop where
  divisor  : f.divisor = r.divisor.toNat
  bits     : f.sevenBits = decide (r.dataBits = 7)
  parity   : f.parity.code = r.parity
  gap      : f.gap = r.gap.toNat
  codeAt   : f.codeAt = r.codeAt.toNat
  checksum : f.checksum.code = r.checksum
  start    : f.start = r.start.toNat

/-- The bytes a patch source writes, by its code (9.1): GAIN and PHASE 2, SEAL_NUMBER 4, POSITION 1. -/
def sourceBytesOf (source : Byte) : Nat := if source = 2 then 4 else if source = 3 then 1 else 2

/-- A patch field in its ranges, with a source its rule's action allows (9.1; R148, conditions 1 and 2). -/
def PatchLegal (action : Byte) (r : PatchRecord) : Prop :=
  r.offset.toNat ≤ 239 ∧ r.order.toNat ≤ 1 ∧
    (r.source = 3 ∨ ((r.source = 0 ∨ r.source = 1) ∧ action = 2) ∨ (r.source = 2 ∧ action = 3))

/-- A rule record that passes R148. A patch field past the patch count, and the bytes of an absent ack test, are
not judged. An allowed-states byte with any of bits 4 to 7 set is outside its range (assumption 7), and so is an enabled,
expect reply or ack test present byte above 1 (assumption 36). -/
structure RuleLegal (r : RuleRecord) : Prop where
  flags   : r.enabled.toNat ≤ 1 ∧ r.expectReply.toNat ≤ 1 ∧ r.ackPresent.toNat ≤ 1
  codes   : r.action.toNat ≤ 3 ∧ r.allowed.toNat ≤ 15 ∧ 1 ≤ r.timeout.toNat ∧ r.patchCount.toNat ≤ 2
  first   : 1 ≤ r.patchCount.toNat → PatchLegal r.action r.patch1
  second  : r.patchCount.toNat = 2 → PatchLegal r.action r.patch2
  apart   : r.patchCount.toNat = 2 → r.patch1.source ≠ r.patch2.source ∧
              (r.patch1.offset.toNat + sourceBytesOf r.patch1.source ≤ r.patch2.offset.toNat ∨
                r.patch2.offset.toNat + sourceBytesOf r.patch2.source ≤ r.patch1.offset.toNat)
  gain    : r.action = 2 → (1 ≤ r.patchCount.toNat ∧ r.patch1.source = 0) ∨
              (r.patchCount.toNat = 2 ∧ r.patch2.source = 0)
  replies : r.action = 2 ∨ r.action = 3 → r.expectReply = 1 ∧ r.ackPresent = 1

/-- A stored patch field equals the one a record carries. -/
def PatchIs (p : Patch) (r : PatchRecord) : Prop :=
  p.offset = r.offset.toNat ∧ p.source.code = r.source ∧ p.little = decide (r.order = 1)

/-- The stored rule equals the one a record carries, field by field (9.1). -/
structure RuleIs (f : FrameRule) (r : RuleRecord) : Prop where
  enabled : f.enabled = decide (r.enabled = 1)
  code    : f.value = r.value ∧ f.mask = r.mask
  action  : f.action.code = r.action
  allowed : f.allowed.loaded = r.allowed.getLsbD 0 ∧ f.allowed.trimmed = r.allowed.getLsbD 1 ∧
              f.allowed.verified = r.allowed.getLsbD 2 ∧ f.allowed.sealed = r.allowed.getLsbD 3
  reply   : f.expectReply = decide (r.expectReply = 1) ∧ f.timeout = 10 * r.timeout.toNat
  patches : f.patches.length = r.patchCount.toNat ∧ (∀ p, f.patches[0]? = some p → PatchIs p r.patch1) ∧
              ∀ p, f.patches[1]? = some p → PatchIs p r.patch2
  ack     : f.ack = if r.ackPresent = 1 then some { offset := r.ackOffset.toNat, expected := r.ackByte } else none

/-- A meter line reloaded at a level, with a polarity: three copies of its sample, no edge accepted, no tally
(R3). -/
def reloadedLine (level inverted : Bool) : Line :=
  { level := level, oldest := level ^^ inverted, middle := level ^^ inverted, newest := level ^^ inverted,
    filtered := level ^^ inverted, lastAccepted := none, tally := 0 }

/-- The line settings a load carries, with the edge select its bits 2..3 name (11.7). -/
def lineOf (r : LoadRecord) (e : EdgeSelect) : LineSettings :=
  { inverted := r.line.getLsbD 0, filterOn := r.line.getLsbD 1, edge := e, deadTime := r.deadTime.toNat }

/-- A word lies in the signed range of a width (2.1). -/
def WordFits (width : Nat) (w : Int) : Prop := -(2 ^ (width - 1)) ≤ w ∧ w ≤ 2 ^ (width - 1) - 1

/-- The fields of a POSITION_LOAD lie in their ranges (2.1; R22, condition 1, the position number apart). A line
settings byte or a carried byte with a higher bit set is outside its range (assumption 7). -/
structure LoadLegal (r : LoadRecord) : Prop where
  cmut   : 1 ≤ r.cmut.toNat ∧ r.cmut.toNat ≤ 4000000000
  line   : r.line.toNat < 12
  widths : 4 ≤ r.gainWidth.toNat ∧ r.gainWidth.toNat ≤ 16 ∧ 4 ≤ r.phaseWidth.toNat ∧ r.phaseWidth.toNat ≤ 16
  units  : 1 ≤ r.gainUnit.toNat ∧ r.gainUnit.toNat ≤ 1000000 ∧ 1 ≤ r.phaseUnit.toNat ∧ r.phaseUnit.toNat ≤ 1000000
  words  : r.carried.toNat < 4 ∧ (r.carried.getLsbD 0 = true → WordFits r.gainWidth.toNat r.gain.toInt) ∧
             (r.carried.getLsbD 1 = true → WordFits r.phaseWidth.toNat r.phase.toInt)

/-- A kept applied word of a loaded position stays within its new width (R22, condition 4). -/
def KeptWordsFit (r : LoadRecord) (old : PositionRecord) : Prop :=
  (r.carried.getLsbD 0 = false → WordFits r.gainWidth.toNat old.gain) ∧
    (r.carried.getLsbD 1 = false → WordFits r.phaseWidth.toNat old.phase)

/-- The meter constants of a load. -/
def meterOf (r : LoadRecord) : MeterConstants :=
  { cmut := r.cmut.toNat, gainWidth := r.gainWidth.toNat, gainUnit := r.gainUnit.toNat,
    phaseWidth := r.phaseWidth.toNat, phaseUnit := r.phaseUnit.toNat }

/-- The record a load from EMPTY leaves (R23). -/
def freshRecord (r : LoadRecord) (e : EdgeSelect) : PositionRecord :=
  { state := .loaded, included := true, line := lineOf r e, meter := some (meterOf r),
    gain := if r.carried.getLsbD 0 then r.gain.toInt else 0,
    phase := if r.carried.getLsbD 1 then r.phase.toInt else 0,
    correction := none, outOfTrim := false, trimRounds := 0, serial := none, runId := none,
    results := Vector.replicate 32 none, verification := [], inFlight := .none, latestGate := none }

/-- The record a load of a LOADED, TRIMMED or VERIFIED position leaves (R24). -/
def reloadedRecord (r : LoadRecord) (e : EdgeSelect) (old : PositionRecord) : PositionRecord :=
  { old with
    included := true, line := lineOf r e, meter := some (meterOf r),
    gain := if r.carried.getLsbD 0 then r.gain.toInt else old.gain,
    phase := if r.carried.getLsbD 1 then r.phase.toInt else old.phase,
    correction := none, outOfTrim := false }

/-- A record with a verdict recorded: the entry in the place of its step, the run id, and the demotion of a
VERIFIED position (R28, R29). -/
def recorded (n : Fin 32) (e : Entry) (r : PositionRecord) : PositionRecord :=
  { r with
    results := r.results.set n.val (some e), runId := some e.runId,
    state := if r.state = .verified then (if r.trimRounds = 0 then .loaded else .trimmed) else r.state,
    verification := if r.state = .verified then [] else r.verification }

/-- Position `p` received a verdict between two states: its record and its STEP_VERDICT mark (R28). -/
def Judged (s t : State) (p : Pos) (n : Fin 32) (e : Entry) : Prop :=
  t.pos p = recorded n e (s.pos p) ∧ t.marks p = { s.marks p with verdict := some n }

/-- The positions of the running set (R27, 4.6). -/
def Eligible (r : PositionRecord) : Prop :=
  r.included = true ∧ r.inFlight = .none ∧ (r.state = .loaded ∨ r.state = .trimmed ∨ r.state = .verified)

/-- The step that was active is over, and the module stays in COMPLETE (R46, R47). -/
structure StepOver (s t : State) : Prop where
  state   : t.psc.stepState = .complete ∧ t.psc.active = none ∧ t.psc.running = []
  last    : t.psc.last = s.psc.active
  timer   : t.psc.timerUse = .none ∧ t.piu.timer.counting = false ∧ t.piu.monitor = .disarmed
  event   : t.psc.lastEvent = some .complete ∧ t.bli.markStepState = true
  work    : ∀ p, t.gate p = none ∧ t.window p = none ∧ t.reg p = none
  keeps   : t.psc.plan = s.psc.plan ∧ t.psc.queued = s.psc.queued

/-- What no event of a step or of a position touches: the settings, the profile, the templates, the rules, the
store, and the queues and tallies of the bench link. -/
structure Beside (s t : State) : Prop where
  settings : t.pt.trimLimit = s.pt.trimLimit ∧ t.pt.gateReports = s.pt.gateReports
  ports    : t.pch.profile = s.pch.profile ∧ t.pch.identify = s.pch.identify ∧
               t.pch.registerRead = s.pch.registerRead
  rules    : t.rules = s.rules
  store    : t.srs = s.srs
  times    : t.piu.micros = s.piu.micros ∧ t.piu.millis = s.piu.millis
  queues   : t.bli.answers = s.bli.answers ∧ t.bli.reports = s.bli.reports ∧ t.bli.forward = s.bli.forward ∧
               t.bli.owed = s.bli.owed ∧ t.bli.held = s.bli.held ∧ t.bli.sealDone = s.bli.sealDone

/-- A gate context at its creation, at a millisecond count (R58). -/
def newGate (now : Word32) : GateContext :=
  { state := .seek, index := 0, latch := none, count := 0, m := 0, overrange := false, discards := 0,
    attempts := 0, accepted := 0, errorSum := 0, bounds := none, saturated := false, nClamped := false,
    timeoutStart := now }

/-- The window timer of a CREEP, START or REGISTER step at the start of its window (R13, R44). -/
def windowTimerOf (r : StepRecord) : WindowTimer :=
  { counting := decide (0 < r.window.toNat), count := 0, matchValue := r.window.toNat,
    clock := if r.clock = 1 then .refK else .ms, divisor := r.divisor.toNat, remainder := 0 }

/-- The window timer at the start of a delay in milliseconds (R13, R44, R45). -/
def delayTimerOf (delay : Nat) : WindowTimer :=
  { counting := decide (0 < delay), count := 0, matchValue := delay, clock := .ms, divisor := 1, remainder := 0 }

/-- The work of a step's kind begins at its entry to RUNNING, for the positions of its running set (R44, R11,
R58, R100). `s` is the state before the entry. -/
structure WorkBegun (r : StepRecord) (s t : State) : Prop where
  state    : t.psc.stepState = .running ∧ t.psc.lastEvent = some .running ∧ t.bli.markStepState = true
  error    : r.kind = 0 → t.psc.timerUse = .none ∧ t.piu.monitor = .armed 0 ∧
               ∀ p, t.gate p = if p ∈ t.psc.running then some (newGate s.piu.millis) else s.gate p
  creep    : r.kind = 1 → t.piu.timer = windowTimerOf r ∧ t.psc.timerUse = .window ∧
               t.psc.windowStart = s.piu.millis ∧ t.piu.monitor = s.piu.monitor ∧
               ∀ p, t.window p = if p ∈ t.psc.running then some { count := 0, waiting := false, decided := false }
                 else s.window p
  start    : r.kind = 2 → t.piu.timer = windowTimerOf r ∧ t.psc.timerUse = .window ∧
               t.psc.windowStart = s.piu.millis ∧ t.piu.monitor = s.piu.monitor ∧
               ∀ p, t.window p = if p ∈ t.psc.running then some { count := 0, waiting := true, decided := false }
                 else s.window p
  register : r.kind = 3 → t.piu.timer = windowTimerOf r ∧ t.psc.timerUse = .window ∧ t.piu.monitor = .armed 0

/-- The fields of the entry of a verdict that comes from outside a measurement, ABORTED or REF_LOST: what the
position holds by then (R30, R53, R71, R104, R113). -/
def CutFields (s : State) (p : Pos) (f : EntryFields) : Prop :=
  ∀ a r, s.psc.active = some a → s.psc.plan[a.slot.val] = some r →
    (r.kind = 0 → s.gate p = none → f = .error 0 0 none none) ∧
    (r.kind = 0 → ∀ g, s.gate p = some g →
      f = .error g.accepted g.attempts (g.latch.map GateLatch.n) (stepStatistics g.errorSum g.bounds g.accepted)) ∧
    (r.kind = 1 → f = .creep (((s.window p).map WindowRecord.count).getD 0)) ∧
    (r.kind = 2 → f = .start none) ∧
    (r.kind = 3 → f = .register ((s.reg p).bind RegContext.r0) none none)

/-- Every running position receives a verdict from outside its measurement, and no other position is touched
(R46, R48, R53). -/
def AllCut (s t : State) (a : StepRef) (v : Verdict) : Prop :=
  ∀ p, (p ∈ s.psc.running → ∃ e, e.verdict = v ∧ e.runId = a.run ∧ CutFields s p e.fields ∧ Judged s t p a.slot e) ∧
    (p ∉ s.psc.running → t.pos p = s.pos p ∧ t.marks p = s.marks p)

/-- The record of the active step is `r`, from its slot (R38). -/
def Runs (s : State) (a : StepRef) (r : StepRecord) : Prop :=
  s.psc.active = some a ∧ s.psc.plan[a.slot.val] = some r

/-- An expiry of a use is there to be acted on: it was raised for the current start of that use, or none was
raised and the timer counts that use and reaches its match with this event (R13, R45; assumption 11). -/
def ExpiryDue (s : State) (use : TimerUse) : Prop :=
  s.psc.timerUse = use ∧
    ((use, s.psc.useNo) ∈ s.psc.raised ∨ ((∀ e ∈ s.psc.raised, e.1 ≠ use) ∧ s.piu.timer.counting = true))

/-! ### Figures -/

/-- The integer nearest an exact quotient `a / d`, and of two equally near the one farther from zero; `d` may have
either sign (R82, R121). -/
def NearestQuotient (a d q : Int) : Prop :=
  ∀ k : Int, |a - d * q| ≤ |a - d * k| ∧ (|a - d * k| = |a - d * q| → |k| ≤ |q|)

/-- The rounded quotient by a positive divisor (R82). -/
def NearestInt (a : Int) (b : Nat) (q : Int) : Prop := NearestQuotient a b q

/-- A rounded error held within its bounds, with the flag that says it had to be (R85). -/
def HeldWithin (x e : Int) (saturated : Bool) : Prop :=
  e = max (-999999) (min 999999 x) ∧ (saturated = true ↔ x < -999999 ∨ 999999 < x)

/-- A gate error and its SATURATED flag (R84, R85). -/
def IsGateError (n cref m cmut : Nat) (e : Int) (saturated : Bool) : Prop :=
  ∃ x, NearestInt (((n * cref * 1000 : Nat) - (m * cmut : Nat) : Int) * 1000000) (m * cmut) x ∧
    HeldWithin x e saturated

/-- A register error and its SATURATED flag, from the register difference (R92, R93). -/
def IsRegisterError (delta unit cref window divisor : Nat) (e : Int) (saturated : Bool) : Prop :=
  ∃ x, NearestInt ((delta * unit * cref : Nat) - (window * divisor * 1000000 : Nat) : Int) (window * divisor) x ∧
    HeldWithin x e saturated

/-- The gate length a gate latches, and whether it was clamped: the length named, or the least whole number of
pulses that spans the minimum reference count, clamped to 65,535 (R59, R86). -/
def IsGateLength (r : StepRecord) (cmut n : Nat) (clamped : Bool) : Prop :=
  (r.gateMode = 0 → n = r.gateArg.toNat ∧ clamped = false) ∧
    (r.gateMode = 1 →
      (65535 * (r.cref.toNat * 1000) < r.gateArg.toNat * cmut → n = 65535 ∧ clamped = true) ∧
      (r.gateArg.toNat * cmut ≤ 65535 * (r.cref.toNat * 1000) → clamped = false ∧ 1 ≤ n ∧
        r.gateArg.toNat * cmut ≤ n * (r.cref.toNat * 1000) ∧
        ∀ k, 1 ≤ k → r.gateArg.toNat * cmut ≤ k * (r.cref.toNat * 1000) → n ≤ k))

/-- The mean and spread of the accepted gates of a context: absent with none accepted (R71, R87, R88). -/
def IsStatistics (g : GateContext) (st : Option (Int × Nat)) : Prop :=
  (g.accepted = 0 → st = none) ∧
    ∀ b, g.bounds = some b → 1 ≤ g.accepted →
      ∃ mean, NearestInt g.errorSum g.accepted mean ∧ st = some (mean, (b.2 - b.1).toNat)

/-- The verdict of a mean and a spread (R89). -/
def IsErrorVerdict (r : StepRecord) (mean : Int) (spread : Nat) (v : Verdict) : Prop :=
  (r.spread.toNat < spread → v = .unstable) ∧
    (spread ≤ r.spread.toNat → r.lower.toInt ≤ mean ∧ mean ≤ r.upper.toInt → v = .pass) ∧
    (spread ≤ r.spread.toNat → mean < r.lower.toInt ∨ r.upper.toInt < mean → v = .fail)

/-! ### Meter edges -/

/-- A candidate edge taken now is accepted: no accepted edge lies less than the dead time before it (R5). -/
def Accepted (s : State) (p : Pos) : Prop :=
  ∀ t0, (s.line p).lastAccepted = some t0 → t0 + (s.pos p).line.deadTime ≤ s.piu.micros

/-- The value the filtered value changes to at a transition that the edge select picks (R4). -/
def PicksTo (s : State) (p : Pos) (v : Bool) : Prop :=
  match (s.pos p).line.edge with
  | .rising => v = true
  | .falling => v = false
  | .both => v = !(s.line p).filtered

/-- A line that has gone to a value: its sample and its filtered value are that value, and its pin has the level
that the polarity makes of it (R1, R2). -/
def LineAt (s : State) (p : Pos) (v : Bool) (l : Line) : Prop :=
  l.filtered = v ∧ l.newest = v ∧ l.level = (v ^^ (s.pos p).line.inverted)

/-- The line of a position after a candidate edge that was accepted (R4, R5). -/
def EdgeTaken (s : State) (p : Pos) (l : Line) : Prop :=
  ∃ v, PicksTo s p v ∧ LineAt s p v l ∧ l.lastAccepted = some s.piu.micros

/-- The direction of REF_IN that is counted (R8). The codes 0 and 1 of the field are the model's (assumption
6). -/
def CountsEdge (s : State) (edge : RefEdge) : Prop :=
  (∀ a r, Runs s a r → (r.kind = 0 ∨ r.kind = 3) → (edge = .falling ↔ r.refEdge = 1)) ∧
    ((∀ a r, Runs s a r → r.kind ≠ 0 ∧ r.kind ≠ 3) → edge = .rising)

/-- A gate context opened on an edge taken now (R59). -/
def openedGate (r : StepRecord) (cmut n : Nat) (clamped : Bool) (now : Word32) (g : GateContext) : GateContext :=
  { g with
    state := .opened, index := g.index + 1,
    latch := some { n := n, cref := r.cref.toNat, cmut := cmut, nClamped := clamped },
    count := 0, m := 0, overrange := false, nClamped := g.nClamped || clamped, timeoutStart := now }

/-- The outcome of a closed gate: the first condition of R65 that holds. -/
def IsOutcome (r : StepRecord) (tally : Nat) (g : GateContext) (o : GateOutcome) : Prop :=
  (g.discards < r.warmUp.toNat → o = .discarded) ∧
    (r.warmUp.toNat ≤ g.discards →
      (g.overrange = true → o = .overrange) ∧
      (g.overrange = false →
        (g.m = 0 → o = .zeroRef) ∧
        (1 ≤ g.m →
          (r.noise.toNat < tally → o = .noisy) ∧ (tally ≤ r.noise.toNat → o = .accepted))))

/-- The error of a closed gate: none with m = 0 or OVERRANGE, and else that of R84 (R63). -/
def IsCloseError (l : GateLatch) (g : GateContext) (x : Option (Int × Bool)) : Prop :=
  (g.m = 0 ∨ g.overrange = true → x = none) ∧
    (1 ≤ g.m → g.overrange = false → ∃ e sat, x = some (e, sat) ∧ IsGateError l.n l.cref g.m l.cmut e sat)

/-- The counts of a context after a closed gate of outcome `o` (R66 to R69). -/
def CountsAfter (o : GateOutcome) (x : Option (Int × Bool)) (g h : GateContext) : Prop :=
  (o = .discarded → h = { g with discards := g.discards + 1 }) ∧
    (o = .overrange ∨ o = .zeroRef ∨ o = .noisy → h = { g with attempts := g.attempts + 1 }) ∧
    (o = .accepted → ∀ e sat, x = some (e, sat) → ∃ lo hi,
      h = { g with
        attempts := g.attempts + 1, accepted := g.accepted + 1, errorSum := g.errorSum + e,
        bounds := some (lo, hi), saturated := g.saturated || sat } ∧
      (g.bounds = none → lo = e ∧ hi = e) ∧
      ∀ b, g.bounds = some b → lo = min b.1 e ∧ hi = max b.2 e)

/-- The latest gate result of a closed gate (R74). -/
def resultOf (o : GateOutcome) (l : GateLatch) (x : Option (Int × Bool)) (tally : Nat) (g : GateContext) :
    GateResult :=
  { index := g.index, outcome := o, error := x.map Prod.fst, n := l.n, m := g.m, tally := tally,
    saturated := (x.map Prod.snd).getD false, nClamped := l.nClamped, overrange := g.overrange }

/-- What a closing act finds and makes: the outcome, the error, and the context with its counts, from the context
`g` with its last pulse counted (R63). -/
structure GateClosed (r : StepRecord) (l : GateLatch) (tally : Nat) (g : GateContext) (o : GateOutcome)
    (x : Option (Int × Bool)) (h : GateContext) : Prop where
  outcome : IsOutcome r tally g o
  error   : IsCloseError l g x
  counts  : CountsAfter o x g h

/-- The measurement goes on after a closed gate (R70). -/
def GoesOn (r : StepRecord) (o : GateOutcome) (h : GateContext) : Prop :=
  o ≠ .overrange ∧ h.accepted ≠ r.gates.toNat ∧ h.attempts ≤ h.accepted + r.extra.toNat

/-- The marks of a position after a closed gate (R75). -/
def gateMarks (s : State) (p : Pos) : PosMarks := { s.marks p with gate := (s.marks p).gate || s.pt.gateReports }

/-- The state with a position's line, record, gate context and marks replaced. -/
def withGate (p : Pos) (l : Line) (r : PositionRecord) (g : GateContext) (m : PosMarks) (s : State) : State :=
  (((s.setLine p l).setPos p r).setGate p (some g)).setMarks p m

/-- A position has received its verdict and left the running set: no other position is touched; the step goes on
while others run, and is over when it was the last (R46, R47). -/
structure LeavesStep (s t : State) (p : Pos) : Prop where
  beside : Beside s t
  others : ∀ q, q ≠ p → t.pos q = s.pos q ∧ t.marks q = s.marks q ∧ t.line q = s.line q
  chans  : t.pch = s.pch
  goesOn : (∃ q ∈ s.psc.running, q ≠ p) →
    t.psc.running = s.psc.running.filter (fun q => decide (q ≠ p)) ∧ t.psc.stepState = s.psc.stepState ∧
      t.psc.active = s.psc.active ∧ t.psc.queued = s.psc.queued ∧ t.psc.timerUse = s.psc.timerUse ∧
      t.piu.timer = s.piu.timer ∧ t.piu.monitor = s.piu.monitor ∧
      ∀ q, q ≠ p → t.gate q = s.gate q ∧ t.window q = s.window q ∧ t.reg q = s.reg q
  isOver : (∀ q ∈ s.psc.running, q = p) → StepOver s t

/-- What the completion of a step leads to: a queued step leaves the queue and starts with its run id, as STEP_RUN
starts one (R42, R47), and requests with an empty template that it places end on the same event (R142). A step that
goes on, or completes with nothing queued, stays as it is. -/
def stepOn (t : State) : State :=
  match t.psc.stepState, t.psc.queued with
  | .complete, some q => quiesce (startStep q (emptyQueue t))
  | _, _ => t

/-- The end of an event after which a step may be over: the queued step, and the reports that are due (R47, R190). -/
def nextStep (t : State) : State := buildDue (stepOn t)

/-- The entry of an ERROR measurement that ends, with its statistics (R71). -/
def gateEntry (v : Verdict) (run : Word32) (g : GateContext) (st : Option (Int × Nat)) : Entry :=
  { verdict := v, runId := run, saturated := g.saturated, nClamped := g.nClamped,
    fields := .error g.accepted g.attempts (g.latch.map GateLatch.n) st }

/-! ### Corrections and verification -/

/-- A mask that names a position and has none of bits 12 to 15 set (11.7). -/
def MaskLegal (mask : Word16) : Prop := 1 ≤ mask.toNat ∧ mask.toNat ≤ 4095

/-- Step A and step B of a CORRECTION_COMPUTE that passes R117: ERROR steps, B not A, and B's tangent at least 100 in
magnitude. -/
def StepsLegal (s : State) (a : Byte) (b : Option Byte) (na : Fin 32) (nb : Option (Fin 32 × Int)) : Prop :=
  a = BitVec.ofNat 8 na.val ∧ (∃ r, s.psc.plan[na.val] = some r ∧ r.kind = 0) ∧
    ((b = none ∧ nb = none) ∨
      ∃ (n : Fin 32) (r : StepRecord), b = some (BitVec.ofNat 8 n.val) ∧ n ≠ na ∧ s.psc.plan[n.val] = some r ∧
        r.kind = 0 ∧ 100 ≤ |r.tangent.toInt| ∧ nb = some (n, r.tangent.toInt))

/-- The position takes part in a computation or an evaluation (R118, R128). -/
def TakesPart (r : PositionRecord) : Prop := (r.state = .loaded ∨ r.state = .trimmed) ∧ r.inFlight = .none

/-- The entry of a step is usable, with its mean (R119). -/
def Usable (r : PositionRecord) (n : Fin 32) (mean : Int) : Prop :=
  ∃ e k a nUsed spread, r.results[n.val] = some e ∧ e.fields = .error k a nUsed (some (mean, spread)) ∧
    (e.verdict = .pass ∨ e.verdict = .fail ∨ e.verdict = .unstable)

/-- A word held within the signed range of a width (R122). -/
def heldWord (width : Nat) (w : Int) : Int := max (-(2 ^ (width - 1))) (min (2 ^ (width - 1) - 1) w)

/-- Both targets of a computation lie in their ranges (R122). -/
def TargetsFit (m : MeterConstants) (gain : Int) (phase : Option Int) : Prop :=
  WordFits m.gainWidth gain ∧ ∀ w, phase = some w → WordFits m.phaseWidth w

/-- The record and the outcome bytes after formed targets: READY with both kept, or OUT_OF_TRIM with none (R122,
R123, 11.7). -/
def TargetsEnd (m : MeterConstants) (gain : Int) (phase : Option Int) (r r' : PositionRecord) (l : List Byte) : Prop :=
  (TargetsFit m gain phase →
    r' = { r with correction := some { gain := gain, phase := phase }, outOfTrim := false }) ∧
  (¬ TargetsFit m gain phase → r' = { r with correction := none, outOfTrim := true }) ∧
  ∃ code flags : Byte, (code = 0 ↔ TargetsFit m gain phase) ∧ code.toNat ≤ 1 ∧ flags.toNat < 8 ∧
    (flags.getLsbD 0 = true ↔ phase.isSome = true) ∧ (flags.getLsbD 1 = true ↔ ¬ WordFits m.gainWidth gain) ∧
    (flags.getLsbD 2 = true ↔ ∃ w, phase = some w ∧ ¬ WordFits m.phaseWidth w) ∧
    l = [code, flags] ++ intBytes 4 (heldWord m.gainWidth gain) ++
      intBytes 4 ((phase.map (heldWord m.phaseWidth)).getD 0) ++ [0, 0]

/-- NO_CORRECTION: the pending correction is withdrawn, and the step named (R119, R123, 11.7). That the gain target
bytes are zeros is the model's choice (assumption 6). -/
def NoCorrection (n : Fin 32) (r r' : PositionRecord) (l : List Byte) : Prop :=
  r' = { r with correction := none, outOfTrim := false } ∧
    l = [2, 0, 0, 0, 0, 0, 0, 0, 0, 0, BitVec.ofNat 8 n.val, 0]

/-- The computation for a position that takes part (R119 to R122). -/
def Corrected (m : MeterConstants) (na : Fin 32) (nb : Option (Fin 32 × Int)) (r r' : PositionRecord)
    (l : List Byte) : Prop :=
  ((¬ ∃ eA, Usable r na eA) → NoCorrection na r r' l) ∧
    ∀ eA, Usable r na eA → ∃ q, NearestInt (-eA * 100) m.gainUnit q ∧
      (nb = none → TargetsEnd m (r.gain + q) none r r' l) ∧
      ∀ n t, nb = some (n, t) →
        ((¬ ∃ eB, Usable r n eB) → NoCorrection n r r' l) ∧
        ∀ eB, Usable r n eB → ∃ k, NearestQuotient (-(eB - eA) * 100000) (t * m.phaseUnit) k ∧
          TargetsEnd m (r.gain + q) (some (r.phase + k)) r r' l

/-- A step list that passes R127: 1 to 32 step numbers, none twice. -/
def ListLegal (steps : List Byte) : Prop := steps ≠ [] ∧ (∀ b ∈ steps, b.toNat ≤ 31) ∧ steps.Nodup

/-- The entry of a step is a present PASS (R128). -/
def Passed (r : PositionRecord) (b : Byte) : Prop :=
  ∃ (n : Fin 32) (e : Entry), b = BitVec.ofNat 8 n.val ∧ r.results[n.val] = some e ∧ e.verdict = .pass

/-- The value a verification pair copies from an entry (R129). -/
def CopiesValue (e : Entry) (v : Int) : Prop :=
  (∀ k a nUsed mean spread, e.fields = .error k a nUsed (some (mean, spread)) → v = mean) ∧
    (∀ r0 r1 x, e.fields = .register r0 r1 (some x) → v = x) ∧
    (∀ c, e.fields = .creep c → v = 0) ∧ ∀ t, e.fields = .start t → v = 0

/-- The verification set of a position: one pair for each of the first 8 listed steps in ascending order (R129). -/
structure CapturedSet (steps : List Byte) (r : PositionRecord) (v : List (Nat × Int)) : Prop where
  rising : v.Pairwise (fun x y => x.1 < y.1)
  size   : v.length = min 8 steps.length
  pairs  : ∀ x ∈ v, ∃ e, BitVec.ofNat 8 x.1 ∈ steps ∧ x.1 < 32 ∧ r.results[x.1]? = some (some e) ∧
             CopiesValue e x.2
  lowest : ∀ b ∈ steps, ∀ x ∈ v, b.toNat < x.1 → ∃ y ∈ v, y.1 = b.toNat

/-- The evaluation of a position that takes part: VERIFIED when every listed entry is a present PASS, and else
NOT_VERIFIED with the lowest that is not (R33, R128, R130). -/
def Evaluated (steps : List Byte) (r r' : PositionRecord) (l : List Byte) : Prop :=
  ((∀ b ∈ steps, Passed r b) → ∃ v, CapturedSet steps r v ∧
    r' = { r with state := .verified, correction := none, outOfTrim := false, verification := v } ∧
    l = [0, BitVec.ofNat 8 v.length, 0, 0]) ∧
  ∀ n : Fin 32, BitVec.ofNat 8 n.val ∈ steps → ¬ Passed r (BitVec.ofNat 8 n.val) →
    (∀ b ∈ steps, b.toNat < n.val → Passed r b) → r' = r ∧
      (r.results[n.val] = none → l = [1, BitVec.ofNat 8 n.val, 0, 0]) ∧
      ∀ e, r.results[n.val] = some e → l = [1, BitVec.ofNat 8 n.val, 1, e.verdict.code]

/-- No channel carries or holds a read of the active step. -/
def NoReads (s : State) : Prop :=
  ∀ p, isReadRequest (s.chan p).internal = false ∧ isReadTransaction (s.chan p).transaction = false

/-- The transaction of a register read at its start: the frame is the template body with its checksum, the
profile and the template are copied (R136, R138). -/
def readTransaction (s : State) (digits : Nat) : Transaction :=
  { owner := .registerRead digits s.pch.registerRead,
    frame := withChecksum s.pch.profile.checksum s.pch.profile.start s.pch.registerRead.body,
    expectReply := true, timeout := s.pch.registerRead.timeout.toNat, profile := s.pch.profile }

/-! ### Transactions -/

/-- No other channel than that of `p` is IDLE with a waiting template request (R142). -/
def OthersServed (s : State) (p : Pos) : Prop :=
  ∀ q, q ≠ p → (s.chan q).state = .idle → (s.chan q).internal = none

/-- Nothing that could start waits at the channel of `p` (R142). -/
def NothingWaits (s : State) (p : Pos) : Prop :=
  (s.chan p).internal = none ∧ ∀ r, (s.chan p).relay = .waiting r → r.sendable = false

/-- No read is due that is not yet placed (R107). -/
def NoOwedRead (s : State) : Prop := ∀ p c, s.reg p = some c → c.read ≠ .owed

/-- The data bits that a character carries of a byte, the least significant first (R133). -/
def bitsOf (f : Profile) (b : Byte) : List Bool :=
  [b.getLsbD 0, b.getLsbD 1, b.getLsbD 2, b.getLsbD 3, b.getLsbD 4, b.getLsbD 5, b.getLsbD 6] ++
    if f.sevenBits then [] else [b.getLsbD 7]

/-- A character on the line: a low start bit, the data bits, a parity bit that makes the number of ones even or odd
where the format has one, and a high stop bit (R133; the levels themselves are assumption 31). -/
def levelsOf (f : Profile) (b : Byte) : List Bool :=
  [false] ++ bitsOf f b ++
    (match f.parity with
      | .none => []
      | .even => [decide ((bitsOf f b).count true % 2 = 1)]
      | .odd => [decide ((bitsOf f b).count true % 2 = 0)]) ++ [true]

/-- A byte as a character to be sent, one bit lasting D + 1 microseconds (8.1, R133). -/
def sentChar (f : Profile) (b : Byte) : WireChar :=
  { levels := levelsOf f b, bitMicros := f.divisor + 1, left := (levelsOf f b).length * (f.divisor + 1) }

/-- A received character is faulty: a low stop bit, or a parity bit that does not match (R133). -/
def faulty (f : Profile) (c : RxChar) : Bool :=
  decide (c.stop = false) ||
    match f.parity with
    | .none => false
    | .even => decide ((c.parity :: bitsOf f c.byte).count true % 2 = 1)
    | .odd => decide ((c.parity :: bitsOf f c.byte).count true % 2 = 0)

/-- The start bit of a character comes before the reply gap has passed (R140). That one exactly at its end comes too
late is the model's choice (assumption 25). -/
def WithinGap (f : Profile) (c : RxChar) : Prop := c.idle < f.gap * (f.divisor + 1)

/-- The characters of a reply among those the line brought: the first ones, up to the gap that ends it (R140). -/
def ReplyOf (f : Profile) (chars kept : List RxChar) : Prop :=
  ∃ rest, chars = kept ++ rest ∧ (kept = [] → chars = []) ∧ (∀ c ∈ kept.tail, WithinGap f c) ∧
    ∀ c, rest.head? = some c → ¬ WithinGap f c

/-- Microseconds a frame takes to send: a start bit, the data bits, the parity bit if there is one and a stop bit for
each byte, one bit lasting D + 1 microseconds (8.1, R133). -/
def frameMicros (f : Profile) (frame : List Byte) : Nat :=
  frame.length * (2 + (if f.sevenBits then 7 else 8) + (if f.parity = .none then 0 else 1)) * (f.divisor + 1)

/-- The transaction of an IDENTIFY request at its start (R136, R138). -/
def identifyTransaction (s : State) : Transaction :=
  { owner := .identify s.pch.identify,
    frame := withChecksum s.pch.profile.checksum s.pch.profile.start s.pch.identify.body,
    expectReply := true, timeout := s.pch.identify.timeout.toNat, profile := s.pch.profile }

/-- The transaction of a relay request at its start (R138). -/
def relayOf (s : State) (r : RelayRequest) : Transaction :=
  { owner := .relay r, frame := r.frame, expectReply := r.expectReply, timeout := r.timeout, profile := s.pch.profile }

/-- A channel that carries a transaction in SENDING from its start: the characters of its frame go out in order, behind
one that the line may still be completing (R133, R138, R144; assumptions 31 and 32). -/
def sendingChannel (c : Channel) (t : Transaction) : Channel :=
  { c with state := .sending t, wire := c.wire ++ t.frame.map (sentChar t.profile) }

/-- The channel back in IDLE, its buffer freed (R140, R141). -/
def idleChannel (c : Channel) : Channel :=
  { c with state := .idle, buffer := { bytes := [], truncated := false, charError := false } }

/-- A channel whose transaction was ended early: IDLE, its reply bytes dropped, and of the frame only the character on
the line still to be completed (R144). -/
def cutChannel (c : Channel) : Channel := { idleChannel c with wire := c.wire.take 1 }

/-- The byte held for a received character (R133). -/
def charByte (f : Profile) (c : RxChar) : Byte := if f.sevenBits then c.byte &&& 0x7F else c.byte

/-- A reply buffer after some more characters (R140): 256 bytes at most, TRUNCATED for what was dropped, the
character error mark for a faulty one. -/
structure Received (f : Profile) (b : ReplyBuffer) (chars : List RxChar) (b' : ReplyBuffer) : Prop where
  bytes     : b'.bytes = (b.bytes ++ chars.map (charByte f)).take 256
  truncated : b'.truncated = (b.truncated || decide (256 < b.bytes.length + chars.length))
  charError : b'.charError = (b.charError || chars.any (faulty f))

/-- The checksum result of a reply: the first row of R135 that applies. -/
structure IsSum (f : Profile) (b : ReplyBuffer) (x : ChecksumResult) : Prop where
  fault     : b.charError = true → x = .bad
  unchecked : b.charError = false → f.checksum = .none → x = .notChecked
  cut       : f.checksum ≠ .none → b.truncated = true → x = .bad
  short     : f.checksum ≠ .none → b.bytes.length < f.start + checksumSize f.checksum → x = .bad
  compared  : b.charError = false → f.checksum ≠ .none → b.truncated = false →
    f.start + checksumSize f.checksum ≤ b.bytes.length →
    (b.bytes.drop (b.bytes.length - checksumSize f.checksum) =
      checksumOf f.checksum ((b.bytes.take (b.bytes.length - checksumSize f.checksum)).drop f.start) → x = .ok) ∧
    (b.bytes.drop (b.bytes.length - checksumSize f.checksum) ≠
      checksumOf f.checksum ((b.bytes.take (b.bytes.length - checksumSize f.checksum)).drop f.start) → x = .bad)

/-- The event that ends a transaction of a channel without an abort, its outcome before any ack test, and the reply it
brings: SENT at the end of sending, NO_REPLY at the timeout, or a reply at its gap (R138 to R140). -/
def EndsBy (s : State) (p : Pos) (t : Transaction) (i : Instr) (o : PortOutcome) (b : ReplyBuffer) : Prop :=
  (i = .sendingEnd p ∧ (s.chan p).state = .sending t ∧ (s.chan p).wire = [] ∧ t.expectReply = false ∧ o = .sent ∧
    b = { bytes := [], truncated := false, charError := false }) ∨
  (i = .replyTimeout p ∧ (∃ waited, (s.chan p).state = .awaitReply t waited) ∧ o = .noReply ∧
    b = { bytes := [], truncated := false, charError := false }) ∨
  (∃ chars kept, i = .replyEnd p chars ∧ (s.chan p).state = .receiving t ∧ o = .replied ∧
    (s.chan p).buffer.bytes.length ≤ 256 ∧ ReplyOf t.profile chars kept ∧
    Received t.profile (s.chan p).buffer kept b)

/-- The payload of a PORT answer after its status: outcome, flags, held length and up to 245 reply bytes (R185,
11.7). -/
def portBytes (o : PortOutcome) (b : ReplyBuffer) (sum : ChecksumResult) : List Byte :=
  [o.code, BitVec.ofNat 8 ((if b.truncated then 1 else 0) + (if 245 < b.bytes.length then 2 else 0) + 4 * sum.code)] ++
    beBytes 2 b.bytes.length ++ b.bytes.take 245

/-- The ack test holds of a reply (R161). -/
def AckHolds (ack : Option AckTest) (f : Profile) (b : ReplyBuffer) (sum : ChecksumResult) : Prop :=
  ∃ a, ack = some a ∧ b.truncated = false ∧ sum ≠ .bad ∧ a.offset < b.bytes.length - checksumSize f.checksum ∧
    b.bytes[a.offset]? = some a.expected

/-- The outcome a relay ends with: for a TRIM_WRITE or SEAL frame the ack test turns a reply into ACKED or NACKED
(R156, R161). -/
structure EndsWith (r : RelayRequest) (f : Profile) (b : ReplyBuffer) (sum : ChecksumResult) (o o' : PortOutcome) :
    Prop where
  plain  : r.kind = .plain → o' = o
  silent : o ≠ .replied → o' = o
  judged : r.kind ≠ .plain → o = .replied →
    (AckHolds r.ack f b sum → o' = .acked) ∧ (¬ AckHolds r.ack f b sum → o' = .nacked)

/-- The checksum result that a PORT answer carries: that of the reply, or NOT_CHECKED without one, which is the
model's choice (assumption 38). -/
def AnswerSum (f : Profile) (b : ReplyBuffer) (o : PortOutcome) (sum : ChecksumResult) : Prop :=
  (o = .replied → IsSum f b sum) ∧ (o ≠ .replied → sum = .notChecked)

/-- The effect of a relay's outcome on the position, for a RELAY or TRIM_WRITE frame (R31, R156, R162). -/
def RelayEffect (s : State) (p : Pos) (k : RelayKind) (o : PortOutcome) (u : State) : Prop :=
  (k = .plain → u = s) ∧
    ∀ gain phase, k = .trim gain phase →
      (o = .acked → u = s.setPos p { s.pos p with
        gain := gain, phase := phase.getD (s.pos p).phase, correction := none,
        trimRounds := (s.pos p).trimRounds + 1, state := .trimmed, results := Vector.replicate 32 none,
        inFlight := .none }) ∧
      (o ≠ .acked → u = s.setPos p { s.pos p with inFlight := .none })

/-- One answer fewer is owed (R185). -/
def settled (s : State) : State := { s with bli := { s.bli with owed := s.bli.owed - 1 } }

/-- The channel of a relay that ended holds its answer: `c` in REPLY_HELD with the answer `a`, both slots as they were,
and after a reply the reply in its buffer (R141, R185). -/
def AnswerHeld (s : State) (p : Pos) (tag : Byte) (o o' : PortOutcome) (b : ReplyBuffer) (sum : ChecksumResult)
    (a : PortAnswer) (c : Channel) : Prop :=
  a.tag = tag ∧ a.reply.status = .ok ∧ a.reply.bytes = portBytes o' b sum ∧ c.state = .replyHeld a ∧
    c.internal = (s.chan p).internal ∧ c.relay = (s.chan p).relay ∧ (o = .replied → c.buffer = b)

/-- A job joins the queue: behind others or a running one it waits, and otherwise it starts at once (R172); `slot` is
the slot of a body job, which finds it RESERVED. -/
def JobJoins (r r' : Srs) (slot : Nat) (j : Job) : Prop :=
  (r.running ≠ none ∨ r.phase ≠ .over → r' = { r with flows := r'.flows, queue := r.queue ++ [j] }) ∧
    (r.running = none → r.phase = .over → r.queue = [] → r.slotState slot = .reserved →
      r' = { r with flows := r'.flows, running := some j })

/-- The field of a template reply: absent with a bad checksum, or where it lies beyond the reply (R137). -/
def Extracted (t : TemplateRecord) (f : Profile) (b : ReplyBuffer) (sum : ChecksumResult) (l : List Byte) : Prop :=
  sum ≠ .bad ∧ t.offset.toNat + t.length.toNat ≤ b.bytes.length - checksumSize f.checksum ∧
    l = field b.bytes t.offset.toNat t.length.toNat

/-- A serial, or BAD_READING (R137). -/
def IsSerial (t : TemplateRecord) (f : Profile) (b : ReplyBuffer) (sum : ChecksumResult) (x : Option (List Byte)) :
    Prop :=
  (∀ l, Extracted t f b sum l → (∀ c ∈ l, 0x20 ≤ c.toNat ∧ c.toNat ≤ 0x7E) → x = some l) ∧
    ((¬ ∃ l, Extracted t f b sum l ∧ ∀ c ∈ l, 0x20 ≤ c.toNat ∧ c.toNat ≤ 0x7E) → x = none)

/-- The value of a field under an encoding of a REGISTER_READ template: 1 BCD, 2 BINARY_BE, 3 ASCII_DECIMAL (R137). -/
def FieldValue (encoding : Byte) (l : List Byte) (v : Nat) : Prop :=
  (encoding = 1 ∧ (∀ c ∈ l, c.toNat / 16 ≤ 9 ∧ c.toNat % 16 ≤ 9) ∧
      v = l.foldl (fun acc c => acc * 100 + (c.toNat / 16 * 10 + c.toNat % 16)) 0) ∨
    (encoding = 2 ∧ v = l.foldl (fun acc c => acc * 256 + c.toNat) 0) ∨
    (encoding = 3 ∧ (∀ c ∈ l, 0x30 ≤ c.toNat ∧ c.toNat ≤ 0x39) ∧
      v = l.foldl (fun acc c => acc * 10 + (c.toNat - 0x30)) 0)

/-- A register reading below 10^digits, or BAD_READING (R137). -/
def IsReading (t : TemplateRecord) (digits : Nat) (f : Profile) (b : ReplyBuffer) (sum : ChecksumResult)
    (x : Option Nat) : Prop :=
  (∀ l v, Extracted t f b sum l → FieldValue t.encoding l v → v < 10 ^ digits → x = some v) ∧
    ((¬ ∃ l v, Extracted t f b sum l ∧ FieldValue t.encoding l v ∧ v < 10 ^ digits) → x = none)

/-- The identify logic after an outcome: the outcome, the serial, the IDENTIFY_DONE mark (R146, R34). -/
def identifiedAs (p : Pos) (o : IdentifyOutcome) (serial : Option (List Byte)) (s : State) : State :=
  ((s.setIdentified p (some o)).setPos p { s.pos p with serial := serial }).setMarks p
    { s.marks p with identify := true }

/-- A running position waits for its reading (R106). -/
def Awaits (s : State) (p : Pos) : Prop :=
  ∃ c, s.reg p = some c ∧ (c.read = .owed ∨ c.read = .placed ∨ c.read = .active)

/-! ### What an abort, an exclusion or a clear ends -/

/-- An EMPTY position record, field by field (R20). -/
structure EmptyRecord (r : PositionRecord) : Prop where
  state        : r.state = .empty
  included     : r.included = false
  line         : r.line = { inverted := false, filterOn := true, edge := .rising, deadTime := 0 }
  meter        : r.meter = none
  words        : r.gain = 0 ∧ r.phase = 0
  correction   : r.correction = none ∧ r.outOfTrim = false ∧ r.trimRounds = 0
  serial       : r.serial = none
  runId        : r.runId = none
  results      : ∀ n : Fin 32, r.results[n.val] = none
  verification : r.verification = []
  inFlight     : r.inFlight = .none
  latestGate   : r.latestGate = none

/-- A channel `c` that enters IDLE becomes `c'`: it starts the request in its internal slot, else a sendable one in its
relay slot, else it stays IDLE (R142). `s` holds the profile and the templates. -/
structure Freed (s : State) (c c' : Channel) : Prop where
  internal : c.internal = some .identify → s.pch.identify.body ≠ [] →
    c' = sendingChannel { c with internal := none } (identifyTransaction s)
  relay    : ∀ r, c.internal = none → c.relay = .waiting r → r.sendable = true →
    c' = sendingChannel { c with relay := .empty } (relayOf s r)
  rests    : c.internal = none → (∀ r, c.relay = .waiting r → r.sendable = false) → c' = c

/-- A channel without its waiting REGISTER_READ request. -/
def withoutRead (c : Channel) : Channel :=
  { c with internal := if isReadRequest c.internal then none else c.internal }

/-- A channel without its waiting IDENTIFY request. -/
def withoutIdentify (c : Channel) : Channel :=
  { c with internal := if isIdentifyRequest c.internal then none else c.internal }

/-- The reads of a position are ended (R113, R144): a waiting request leaves its slot, and a transaction in progress is
cut, after which the channel goes on as R142 says. -/
structure ReadEnded (s : State) (p : Pos) (c : Channel) : Prop where
  waiting : isReadTransaction (s.chan p).transaction = false → c = withoutRead (s.chan p)
  cut     : isReadTransaction (s.chan p).transaction = true → Freed s (cutChannel (withoutRead (s.chan p))) c

/-- No IDENTIFY request waits while its template is empty (what such a request gives is stated with R136). -/
def NoEmptyIdentify (s : State) : Prop := s.pch.identify.body = [] → ∀ p, (s.chan p).internal ≠ some .identify

/-- An exclusion of a running position (R52), up to the start of a queued step: the verdict ABORTED with what the
position holds by then, the end of its gate context, window record and register read, and, for the last running
position, the end of the step. `s` is the state before the command that excludes the position, which is also turned
off. -/
structure Excluded (s t : State) (p : Pos) (a : StepRef) : Prop where
  verdict : ∃ e, e.verdict = .aborted ∧ e.runId = a.run ∧ CutFields s p e.fields ∧
    t.pos p = recorded a.slot e { s.pos p with included := false } ∧
    t.marks p = { s.marks p with verdict := some a.slot }
  work    : t.gate p = none ∧ t.window p = none ∧ t.reg p = none
  beside  : Beside s t
  others  : ∀ q, q ≠ p → t.pos q = s.pos q ∧ t.marks q = s.marks q ∧ t.chan q = s.chan q
  lines   : ∀ q, t.line q = s.line q
  unread  : (s.readingPhase = false ∨ s.reg p = none) → t.chan p = s.chan p
  reads   : s.readingPhase = true → s.reg p ≠ none → ReadEnded s p (t.chan p)
  goesOn  : (∃ q ∈ s.psc.running, q ≠ p) →
    (s.psc.stepState = .readBefore → ∃ q ∈ s.psc.running, q ≠ p ∧ Awaits s q) →
    t.psc.running = s.psc.running.filter (fun q => decide (q ≠ p)) ∧ t.psc.stepState = s.psc.stepState ∧
      t.psc.active = s.psc.active ∧ t.psc.queued = s.psc.queued ∧ t.piu = s.piu ∧
      ∀ q, q ≠ p → t.gate q = s.gate q ∧ t.window q = s.window q ∧ t.reg q = s.reg q
  arms    : s.psc.stepState = .readBefore → (∃ q ∈ s.psc.running, q ≠ p) →
    (∀ q ∈ s.psc.running, q ≠ p → ¬ Awaits s q) → ∀ r, Runs s a r → r.trigger = 1 →
    t.psc.running = s.psc.running.filter (fun q => decide (q ≠ p)) ∧ t.psc.stepState = .armed ∧
      t.psc.lastEvent = some .armed ∧ t.bli.markStepState = true ∧ t.psc.active = s.psc.active ∧ t.piu = s.piu
  isOver  : (∀ q ∈ s.psc.running, q = p) → StepOver s t

/-- The abort of the active step (R48, first part; R144), before the queue is emptied. -/
structure Aborted (s t : State) (a : StepRef) : Prop where
  verdicts : AllCut s t a .aborted
  beside   : Beside s t
  lines    : ∀ p, t.line p = s.line p
  chans    : ∀ p, ReadEnded s p (t.chan p)
  state    : t.psc.stepState = .idle ∧ t.psc.active = none ∧ t.psc.running = [] ∧ t.psc.last = some a
  event    : t.psc.lastEvent = some .aborted ∧ t.bli.markStepState = true
  keeps    : t.psc.plan = s.psc.plan ∧ t.psc.queued = s.psc.queued
  work     : ∀ p, t.gate p = none ∧ t.window p = none ∧ t.reg p = none
  timer    : t.psc.timerUse = .none ∧ t.piu.timer.counting = false ∧ t.piu.monitor = .disarmed

/-- The queue of steps emptied (R48, R50). -/
def unqueued (s : State) : State := { s with psc := { s.psc with queued := none } }

/-- The position has IDENTIFY work, waiting or in progress. -/
def HasIdentify (s : State) (p : Pos) : Prop :=
  isIdentifyRequest (s.chan p).internal = true ∨ isIdentifyTransaction (s.chan p).transaction = true

/-- The IDENTIFY work of a position is ended at its channel (R144): a waiting request is withdrawn, and a transaction in
progress is cut, after which the channel goes on as R142 says. -/
structure IdentifyEnded (s : State) (p : Pos) (c : Channel) : Prop where
  waiting : isIdentifyTransaction (s.chan p).transaction = false → c = withoutIdentify (s.chan p)
  cut     : isIdentifyTransaction (s.chan p).transaction = true →
    Freed s (cutChannel (withoutIdentify (s.chan p))) c

/-- The second part of a taken POSITION_CLEAR (R25): the EMPTY record, a reloaded line, and the end of the position's
IDENTIFY work with ABORTED (R144, R146). -/
def ClearedFrom (s u : State) (p : Pos) : Prop :=
  ∃ r, EmptyRecord r ∧
    (¬ HasIdentify s p → u = (s.setPos p r).setLine p (reloadedLine (s.line p).level false)) ∧
    (HasIdentify s p → ∃ c, IdentifyEnded s p c ∧
      u = ((((s.setPos p r).setLine p (reloadedLine (s.line p).level false)).setChan p c).setIdentified p
        (some .aborted)).setMarks p { s.marks p with identify := true })

/-- A read becomes due at a position while the REGISTER_READ template is empty (R107, R136, R142): at an IDLE channel it
ends at once with BAD_READING, and at a busy one it waits. -/
structure EmptyRead (s t : State) (p : Pos) (a : StepRef) (digits : Nat) (r0 : Option Nat) : Prop where
  idle : (s.chan p).state = .idle → t.chan p = s.chan p ∧ Judged s t p a.slot
    { verdict := .badReading, runId := a.run, saturated := false, nClamped := false, fields := .register r0 none none }
  busy : (s.chan p).state ≠ .idle → (s.chan p).internal = none →
    t.reg p = some { read := .placed, r0 := r0, r1 := none } ∧
    t.chan p = { s.chan p with internal := some (.registerRead digits) } ∧ t.pos p = s.pos p ∧ t.marks p = s.marks p
  full : (s.chan p).state ≠ .idle → (s.chan p).internal ≠ none →
    t.reg p = some { read := .owed, r0 := r0, r1 := none } ∧ t.chan p = s.chan p ∧ t.pos p = s.pos p ∧
    t.marks p = s.marks p

/-- The channel of a position carries this relay request in a transaction. -/
def Relays (s : State) (p : Pos) (r : RelayRequest) : Prop := ∃ t, (s.chan p).transaction = some t ∧ t.owner = .relay r

/-- A relay request of a position, in progress or waiting. -/
def RelayWork (s : State) (p : Pos) (r : RelayRequest) : Prop := Relays s p r ∨ (s.chan p).relay = .waiting r

/-- The ABORTED answer of a relay request (R141, R156); its flags are the model's choice (assumption 38). -/
def abortedAnswer (r : RelayRequest) : PortAnswer := .ended r.tag .aborted [] false .notChecked

/-- The cell of an ABORTED answer stands in the answer queue. -/
def AbortAnswered (s t : State) (r : RelayRequest) : Prop :=
  { cell := answerTo s r.tag
      (0x00 :: portBytes .aborted { bytes := [], truncated := false, charError := false } .notChecked),
    actsFull := false } ∈ t.bli.answers

/-- What a RUN reset makes of the work at the channel of a position (R147, R173): relays end with ABORTED, a trim or seal
flow by its ABORTED path, and IDENTIFY work with ABORTED; answers join the queue or are held. `s` is the state before
the reset. -/
structure PortWorkAborted (s t : State) (p : Pos) : Prop where
  wire     : (t.chan p).wire =
    if (s.chan p).transaction.isSome then (s.chan p).wire.take 1 else (s.chan p).wire
  held     : ∀ a, (s.chan p).state = .replyHeld a → (t.chan p).state = .replyHeld a
  relayed  : ∀ r, Relays s p r → ((t.chan p).state = .idle ∧ AbortAnswered s t r) ∨
    ((t.chan p).state = .replyHeld (abortedAnswer r) ∧ .channel p ∈ t.bli.held)
  waited   : ∀ r, (s.chan p).relay = .waiting r → ((t.chan p).relay = .empty ∧ AbortAnswered s t r) ∨
    ((t.chan p).relay = .ended (abortedAnswer r) ∧ .slot p ∈ t.bli.held)
  identify : HasIdentify s p →
    t.identified p = some .aborted ∧ (t.pos p).serial = none ∧ (t.marks p).identify = true
  others   : ¬ HasIdentify s p →
    t.identified p = s.identified p ∧ (t.pos p).serial = (s.pos p).serial ∧
      (t.marks p).identify = (s.marks p).identify
  flowOver : (∃ r number, RelayWork s p r ∧ r.kind = .seal number) → t.flow p = none
  flowKept : (∀ r number, RelayWork s p r → r.kind ≠ .seal number) → t.flow p = s.flow p

/-- The record of a position after a RUN reset, but for its serial: from `r`, its record with the verdict of the aborted
step if it was running, a trim flow ends with its write, and a seal flow VERIFIED again (R31, R32, R37, R147, R173). -/
structure RecordAborted (s t : State) (p : Pos) (r : PositionRecord) : Prop where
  relays : (∀ q, RelayWork s p q → q.kind = .plain) → t.pos p = { r with serial := (t.pos p).serial }
  trims  : (∃ q gain phase, RelayWork s p q ∧ q.kind = .trim gain phase) →
    (∀ q number, RelayWork s p q → q.kind ≠ .seal number) →
    t.pos p = { r with inFlight := .none, serial := (t.pos p).serial }
  seals  : (∃ q number, RelayWork s p q ∧ q.kind = .seal number) →
    t.pos p = { r with state := .verified, inFlight := .none, serial := (t.pos p).serial }

/-- The store and its job queue over a RUN reset (R173): the contents, the pointer and the next seal number stay; where a
job runs, it and the queue stay, and the VOID body job of each live flow that the reset ends joins the queue. -/
structure StoreKept (s t : State) : Prop where
  contents : t.srs.contents = s.srs.contents ∧ t.srs.nextSeal = s.srs.nextSeal ∧ t.srs.highest = s.srs.highest ∧
    t.srs.phase = s.srs.phase ∧ t.srs.lastEvent = s.srs.lastEvent
  jobs     : s.srs.running ≠ none → t.srs.running = s.srs.running ∧ t.srs.pointer = s.srs.pointer ∧
    t.srs.reserved = s.srs.reserved ∧ ∃ l, t.srs.queue = s.srs.queue ++ l ∧
      (∀ j ∈ l, ∃ p fl h b, s.flow p = some fl ∧ t.flow p = none ∧ j = .body fl.slot h b) ∧
      ∀ p fl, s.flow p = some fl → t.flow p = none → ∃ h b, .body fl.slot h b ∈ l ∧ h.number = fl.number ∧
        h.pos = p ∧ h.address = s.strap ∧ b.kind = .void .aborted ∧ b.trimRounds = (s.pos p).trimRounds ∧
        b.gain = (s.pos p).gain ∧ b.phase = (s.pos p).phase ∧
        (p ∉ s.psc.running → b.runId = (s.pos p).runId ∧ b.verification = (s.pos p).verification)

/-! ### Frames -/

/-- A PORT command is taken: the module takes cells, and the queued and the owed answers come to less than 8
(R184). -/
def PortReady (s : State) : Prop := Awake s ∧ s.bli.answers.length + s.bli.owed < 8

/-- The first condition of a list that holds gives its status; with none there is none. -/
def FirstHolds : List (Prop × Status) → Option Status → Prop
  | [], x => x = none
  | c :: l, x => (c.1 → x = some c.2) ∧ (¬ c.1 → FirstHolds l x)

/-- A frame matches a rule: the rule is enabled, and the frame's object code equals its value in every place where its
mask holds 0 (R150, R151). -/
def Matches (s : State) (frame : List Byte) (f : FrameRule) : Prop :=
  f.enabled = true ∧ ∀ k : Fin 16, f.mask.getLsbD k.val = false →
    (BitVec.ofNat 16 ((frame.getD s.pch.profile.codeAt 0).toNat * 256 +
      (frame.getD (s.pch.profile.codeAt + 1) 0).toNat)).getLsbD k.val = f.value.getLsbD k.val

/-- The frame's rule: the first that it matches (R151). -/
def RuleOf (s : State) (frame : List Byte) (f : FrameRule) : Prop :=
  ∃ i : Fin 16, s.rules[i.val] = f ∧ Matches s frame f ∧ ∀ j : Fin 16, j < i → ¬ Matches s frame s.rules[j.val]

/-- The state of a position is one of a rule's allowed states (9.1). -/
def Allowed (f : FrameRule) (x : PosState) : Prop :=
  (x = .loaded ∧ f.allowed.loaded = true) ∨ (x = .trimmed ∧ f.allowed.trimmed = true) ∨
    (x = .verified ∧ f.allowed.verified = true) ∨ (x = .sealed ∧ f.allowed.sealed = true)

/-- The bytes a patch source covers (9.1). -/
def sourceSize : PatchSource → Nat
  | .gain => 2
  | .phase => 2
  | .sealNumber => 4
  | .position => 1

/-- Every patch field of a rule can be placed: it ends before the checksum bytes of a frame of this length (R157). -/
def PatchesPlaced (s : State) (f : FrameRule) (length : Nat) : Prop :=
  ∀ x ∈ f.patches, x.offset + sourceSize x.source ≤ length - checksumSize s.pch.profile.checksum

/-- The rule has a patch field of this source. -/
def Patches (f : FrameRule) (source : PatchSource) : Prop := ∃ x ∈ f.patches, x.source = source

/-- The refusals at orders 6 and 7 of R152, in their order, with their statuses (R155, R157, R159, R168). -/
def actionConditions (s : State) (p : Pos) (f : FrameRule) (length : Nat) : List (Prop × Status) :=
  match f.action with
  | .block => [(True, .blocked)]
  | .relay => [(¬ PatchesPlaced s f length, .badArg)]
  | .trimWrite =>
    [(p ∈ s.psc.running ∨ (s.pos p).inFlight ≠ .none, .wrongState), ((s.pos p).correction = none, .noCorrection),
      (s.pt.trimLimit ≤ (s.pos p).trimRounds, .trimLimit),
      (¬ PatchesPlaced s f length ∨
        ((∃ c, (s.pos p).correction = some c ∧ c.phase ≠ none) ∧ ¬ Patches f .phase), .badArg)]
  | .seal =>
    [((s.pos p).state ≠ .verified ∨ p ∈ s.psc.running ∨ (s.pos p).inFlight ≠ .none, .wrongState),
      (s.srs.phase ≠ .over ∨ 28 ≤ s.srs.jobs.length + s.srs.liveFlows, .busy),
      (s.srs.freeCount = 0 ∨ 4294967296 ≤ s.srs.nextSeal, .storeFull), (¬ PatchesPlaced s f length, .badArg)]

/-- The refusals of a frame that has a rule, from order 5 of R152 on. -/
def ruleConditions (s : State) (p : Pos) (f : FrameRule) (length : Nat) : List (Prop × Status) :=
  (¬ Allowed f (s.pos p).state, .wrongState) :: actionConditions s p f length ++
    [((s.chan p).relay ≠ .empty, .busy)]

/-- The bytes a patch field writes, in its byte order; a PHASE field writes none where the pending correction has no
phase word (R157). -/
def PatchWrites (s : State) (p : Pos) (x : Patch) (bytes : List Byte) : Prop :=
  ∃ raw, bytes = (if x.little then raw.reverse else raw) ∧
    match x.source with
    | .gain => raw = intBytes 2 (((s.pos p).correction.map Correction.gain).getD 0)
    | .phase => ∃ c w, (s.pos p).correction = some c ∧ c.phase = some w ∧ raw = intBytes 2 w
    | .sealNumber => raw = beBytes 4 s.srs.nextSeal
    | .position => raw = [BitVec.ofNat 8 (p.val + 1)]

/-- No two patch fields of a rule cover a common byte (R148). -/
def PatchesApart (f : FrameRule) : Prop :=
  f.patches.Pairwise (fun x y => x.offset + sourceSize x.source ≤ y.offset ∨
    y.offset + sourceSize y.source ≤ x.offset)

/-- A frame with the patches of its rule written and its checksum computed anew where one was (R157, R158). -/
structure PatchedAs (s : State) (p : Pos) (f : FrameRule) (frame frame' : List Byte) : Prop where
  size   : frame'.length = frame.length
  fields : ∀ x ∈ f.patches, ∀ bytes, PatchWrites s p x bytes → field frame' x.offset bytes.length = bytes
  rest   : ∀ k, k < frame.length - checksumSize s.pch.profile.checksum →
    (∀ x ∈ f.patches, ∀ bytes, PatchWrites s p x bytes → k < x.offset ∨ x.offset + bytes.length ≤ k) →
    frame'[k]? = frame[k]?
  sum    : (∃ x ∈ f.patches, ∃ bytes, PatchWrites s p x bytes) → s.pch.profile.checksum ≠ .none →
    frame'.drop (frame.length - checksumSize s.pch.profile.checksum) =
      checksumOf s.pch.profile.checksum
        ((frame'.take (frame.length - checksumSize s.pch.profile.checksum)).drop s.pch.profile.start)
  asSent : (¬ ∃ x ∈ f.patches, ∃ bytes, PatchWrites s p x bytes) → frame' = frame

/-- A channel that is handed a relay request (R142, R154): it starts at once on an IDLE channel when it is sendable,
and otherwise waits in the relay slot. -/
def HandedRelay (s : State) (p : Pos) (r : RelayRequest) (c : Channel) : Prop :=
  ((s.chan p).state = .idle → r.sendable = true → c = sendingChannel (s.chan p) (relayOf s r)) ∧
    ((s.chan p).state ≠ .idle ∨ r.sendable = false → c = { s.chan p with relay := .waiting r })

/-- One answer more is owed (R185). -/
def owing (s : State) : State := { s with bli := { s.bli with owed := s.bli.owed + 1 } }

/-! ### The store -/

/-- A SEAL_DONE entry at the end of the list, or dropped and counted with 24 listed (R171, R189). -/
def sealListed (e : SealDone) (s : State) : State :=
  if s.bli.sealDone.length < 24 then { s with bli := { s.bli with sealDone := s.bli.sealDone ++ [e] } }
  else { s with bli := { s.bli with sealDrops := min (s.bli.sealDrops + 1) 65535 } }

/-- A slot holds new contents, every other slot what it held. -/
def SlotHolds (r r' : Srs) (slot : Nat) (c : SlotContents) : Prop :=
  r'.slot slot = c ∧ ∀ n, n ≠ slot → r'.slot n = r.slot n

/-- A slot is reserved, or its reservation dropped, and every other as it was. -/
def ReservationIs (r r' : Srs) (slot : Nat) (v : Option Reservation) : Prop :=
  r'.reservation slot = v ∧ ∀ n, n ≠ slot → r'.reservation n = r.reservation n

/-- The highest seal number present after a header or a note that carries `number` was programmed on a slot: only a
higher number moves it (R165). -/
def HighestAfter (r r' : Srs) (number slot : Nat) : Prop :=
  (∀ h, r.highest = some h → number ≤ h.1 → r'.highest = some h) ∧
    ((r.highest = none ∨ ∃ h, r.highest = some h ∧ h.1 < number) → r'.highest = some (number, slot / 16))

/-- A record job works on a slot with these contents: a body job or a full-record job (R171). -/
def RecordJob (j : Job) (slot : Nat) (h : Header) (b : SealBody) : Prop := j = .body slot h b ∨ j = .fullRecord slot h b

/-- The figures of the store that a flash result leaves alone. -/
def StoreFigures (r r' : Srs) : Prop :=
  r'.nextSeal = r.nextSeal ∧ r'.phase = r.phase ∧ r'.lastEvent = r.lastEvent

/-- A store event is recorded with its mark (R180). -/
def storeEvent (e : StoreEvent) (s : State) : State :=
  { s with srs := { s.srs with lastEvent := some e }, bli := { s.bli with markStore := true } }

/-- The slot holds a record that a collect job of a number marks: VALID, not collected, its seal number not above
(R174). -/
def Collectable (r : Srs) (number n : Nat) : Prop :=
  r.slotState n = .valid ∧ (r.slot n).collected = false ∧
    ∃ h, (r.slot n).header = .good h ∧ h.number ≤ number

/-- The sectors of the store: slot `n` lies in sector `n / 16` (10.1). -/
def InSector (sector n : Nat) : Prop := n / 16 = sector

/-- The seal number a slot holds by its contents (R165). -/
def HoldsNumber (r : Srs) (n k : Nat) : Prop := (r.slot n).classify.2 = some k

/-- The refusals of STORE_ERASE in their order (R175). -/
def eraseConditions (s : State) (sector : Nat) : List (Prop × Status) :=
  [(63 < sector, .badArg),
    (s.srs.phase ≠ .over ∨ ∃ k, s.srs.running = some (.erase k) ∨ .erase k ∈ s.srs.queue, .busy),
    (∃ n, InSector sector n ∧ s.srs.slotState n = .reserved, .badState),
    (∃ h, s.srs.highest = some h ∧ h.2 = sector, .newestSector),
    (∃ n, InSector sector n ∧ s.srs.slotState n = .valid ∧ (s.srs.slot n).collected = false, .notCollected)]

/-- The refusals of STORE_COLLECT in their order (R174). -/
def collectConditions (s : State) (number : Nat) : List (Prop × Status) :=
  [(number = 0, .badArg),
    (s.srs.phase ≠ .over ∨ ∃ k, s.srs.running = some (.collect k) ∨ .collect k ∈ s.srs.queue, .busy)]

/-- A job that a command queues: behind others or a running one it waits, and else it starts at once (R172). -/
def queued (j : Job) (s : State) : State :=
  if s.srs.running = none ∧ s.srs.queue = [] then { s with srs := { s.srs with running := some j } }
  else { s with srs := { s.srs with queue := s.srs.queue ++ [j] } }

/-- The event ends the running job: what its end does is in `u`, and the next job starts from there (R172). -/
def JobEnded (i : Instr) (s u : State) : Prop :=
  u.srs.running = none ∧ ∃ t, exec i s = .next t ∧ exec .jobStart u = .next t

/-- The event is the end of a job of this kind, which leaves the store with what the job programmed on it, `r'` from `r`:
the acts of the job where it succeeded, the failure notes where it failed, the marks that did not fail of a collect
job (10.1, R165, R174, R176; what else a failed job leaves on a slot is assumption 24). -/
def EndsJob (i : Instr) (j : Job) (r r' : Srs) : Prop :=
  (∃ ok slot h, i = .headerJobEnd ok ∧ j = .header slot h ∧ r' = flashResult ok j r) ∨
    (∃ ok slot h b, i = .bodyJobEnd ok ∧ j = .body slot h b ∧ r' = flashResult ok j r) ∨
    (∃ ok slot h b, i = .fullRecordJobEnd ok ∧ j = .fullRecord slot h b ∧ r' = flashResult ok j r) ∨
    (∃ failed number, i = .collectJobEnd failed ∧ j = .collect number ∧ r' = collected failed number r) ∨
    ∃ ok sector, i = .eraseJobEnd ok ∧ j = .erase sector ∧ r' = flashResult ok j r

/-- The flow that a header belongs to is live (R169). -/
def FlowLive (s : State) (h : Header) : Prop := ∃ fl, s.flow h.pos = some fl ∧ fl.number = h.number

/-- The relay slot of a position holds a waiting request that carries a seal number (R143). -/
def SealWaits (s : State) (p : Pos) (number : Nat) (r : RelayRequest) : Prop :=
  (s.chan p).relay = .waiting r ∧ r.kind = .seal number

/-- A slot is taken at the write pointer under a number, another slot's reservation is dropped, and the pointer
advances (R166, R169, R171). -/
structure Rewritten (r r' : Srs) (slot number : Nat) (p : Pos) : Prop where
  dropped : r'.reservation slot = none
  taken   : r'.reservation r.pointer = some { number := number, pos := p }
  others  : ∀ n, n ≠ slot → n ≠ r.pointer → r'.reservation n = r.reservation n
  pointer : r'.pointer = (r.pointer + 1) % 1024

/-! ### Cells and reports -/

/-- A cell that a receiver takes for one: destination 0 to 15, a kind up to E1h and at most 250 payload bytes
(R181). -/
def CellValid (c : Cell) : Prop := c.dest.toNat ≤ 15 ∧ c.kind.toNat ≤ 0xE1 ∧ c.payload.length ≤ 250

/-- The cells for the modules below with one more (R182). -/
def forwarded (c : Cell) (s : State) : State := { s with bli := { s.bli with downBuffer := s.bli.downBuffer ++ [c] } }

/-- What a transmitter sends at the start of a cell: 5 microseconds for each of its characters (11.1). -/
def sentCell (o : OutCell) : Sending := { out := o, left := 5 * (8 + o.cell.payload.length) }

/-- A REPORT cell of a module at the end of the report queue (R183, R190); with a strap of 0 or 15 its source is the
model's choice (assumption 40). -/
def reported (payload : List Byte) (s : State) : State :=
  { s with bli := { s.bli with reports := s.bli.reports ++
    [{ dest := 0, source := BitVec.ofNat 8 s.strap.toNat, kind := 0xE1, tag := 0, payload := payload }] } }

/-- The step a REF_LOST or STEP_STATE report names: the active step, or else the last step (R54, 11.7). -/
def namedStep (s : State) : Option StepRef := s.psc.active.orElse (fun _ => s.psc.last)

/-- The kinds that travel toward the bench computer, ANSWER and REPORT (11.6). -/
def Upward (c : Cell) : Prop := c.kind = 0xE0 ∨ c.kind = 0xE1

/-- A tally with one more, held at 65,535. -/
def tallied (n : Nat) : Nat := min (n + 1) 65535

/-- A cell is addressed to the module: its strap names one, and the destination is its own address (section 6, R182). -/
def OwnCell (s : State) (c : Cell) : Prop := s.strap ≠ 0 ∧ s.strap ≠ 15 ∧ c.dest = BitVec.ofNat 8 s.strap.toNat

/-- The position has nothing to report (R189). -/
def NoReport (s : State) (p : Pos) : Prop :=
  s.marks p = { verdict := none, identify := false, gate := false } ∧ ∀ e ∈ s.bli.sealDone, e.pos ≠ p

/-- No module mark is set (R189). -/
def NoModuleMark (s : State) : Prop :=
  s.bli.markRefLost = false ∧ s.bli.markStepState = false ∧ s.bli.markStore = false

/-- A read becomes due at a position and is placed: an IDLE channel starts it at once, a busy one takes it into its
empty internal slot, and an occupied slot leaves it owed (R107, R142). -/
structure ReadPlaced (s t : State) (p : Pos) (digits : Nat) (r0 : Option Nat) : Prop where
  idle : (s.chan p).state = .idle → (s.chan p).internal = none →
    t.reg p = some { read := .active, r0 := r0, r1 := none } ∧
    t.chan p = sendingChannel (s.chan p) (readTransaction s digits)
  busy : (s.chan p).state ≠ .idle → (s.chan p).internal = none →
    t.reg p = some { read := .placed, r0 := r0, r1 := none } ∧
    t.chan p = { s.chan p with internal := some (.registerRead digits) }
  full : (s.chan p).internal ≠ none →
    t.reg p = some { read := .owed, r0 := r0, r1 := none } ∧ t.chan p = s.chan p

/-- No report is left to build while the report queue has room (R190). -/
def Reported (s : State) : Prop := 16 ≤ s.bli.reports.length ∨ (NoModuleMark s ∧ ∀ p, NoReport s p)

/-- No IDLE channel waits with a request it could start: each was started at the event that let it
(R142). -/
def Served (s : State) : Prop :=
  ∀ p, (s.chan p).state = .idle →
    (s.chan p).internal = none ∧ ∀ r, (s.chan p).relay = .waiting r → r.sendable = false

/-! ### The passing of a microsecond -/

/-- A line one sample later: the sample is the pin's level after polarity, it enters the history, and the filtered value
is the majority of the three, or with the filter off the sample itself (R1, R2). -/
def sampled (set : LineSettings) (l : Line) : Line :=
  { l with
    oldest := l.middle, middle := l.newest, newest := l.level ^^ set.inverted,
    filtered := if set.filterOn then twoOfThree l.middle l.newest (l.level ^^ set.inverted)
      else l.level ^^ set.inverted }

/-- The line of a position is sampled, from `u` to `v`: a change of the filtered value that the edge select picks is a
candidate edge at this instant (R4), and any other sample changes the line alone. -/
def SampledAt (u : State) (p : Pos) (v : State) : Prop :=
  let l := sampled (u.pos p).line (u.line p)
  (l.filtered ≠ (u.line p).filtered ∧ PicksTo u p l.filtered → exec (.candidateEdge p) u = .next v) ∧
    (¬ (l.filtered ≠ (u.line p).filtered ∧ PicksTo u p l.filtered) → v = u.setLine p l)

/-- The lines of some positions are sampled one after another. -/
def SampledFrom : List Pos → State → State → Prop
  | [], u, v => v = u
  | p :: l, u, v => ∃ w, SampledAt u p w ∧ SampledFrom l w v

/-- What OPT_TX still has to send, one microsecond later: the character on the line goes on to its end, and the next one
follows it (R133). -/
def wireLater : List WireChar → List WireChar
  | [] => []
  | c :: rest => if 1 < c.left then { c with left := c.left - 1 } :: rest else rest

/-- A cell being sent, one microsecond later (R183). -/
def cellLater (x : Sending) : Sending := { x with left := x.left - 1 }

/-- What a tick of the millisecond count does, from `s` to `u`: the count (R7), the quiet time of an armed monitor
(R11), the wait for a reply (R139), and a window timer that counts MS, which at its match raises the expiry of its use
and stops (R13). -/
structure MilliTick (s u : State) : Prop where
  count   : u.piu.millis = s.piu.millis + 1
  quiet   : (∀ q, s.piu.monitor = .armed q → u.piu.monitor = .armed (q + 1)) ∧
              (s.piu.monitor = .disarmed → u.piu.monitor = .disarmed)
  waits   : ∀ p, (∀ t w, (s.chan p).state = .awaitReply t w → (u.chan p).state = .awaitReply t (w + 1)) ∧
              ((∀ t w, (s.chan p).state ≠ .awaitReply t w) → (u.chan p).state = (s.chan p).state)
  counts  : s.piu.timer.counting = true → s.piu.timer.clock = .ms →
              (s.piu.timer.count + 1 < s.piu.timer.matchValue → u.psc.raised = s.psc.raised ∧
                u.piu.timer = { s.piu.timer with count := s.piu.timer.count + 1, remainder := 0 }) ∧
              (s.piu.timer.matchValue ≤ s.piu.timer.count + 1 →
                u.psc.raised = s.psc.raised ++ [(s.psc.timerUse, s.psc.useNo)] ∧
                u.piu.timer =
                  { s.piu.timer with counting := false, count := s.piu.timer.matchValue, remainder := 0 })
  stands  : s.piu.timer.counting = false ∨ s.piu.timer.clock = .refK →
              u.psc.raised = s.psc.raised ∧ u.piu.timer = s.piu.timer

/-- One microsecond passes, from `s` to `u`, before the lines are sampled: the microsecond count (R1), what is being
sent, and at every thousandth microsecond a tick of the millisecond count. Nothing else changes. -/
structure Ticked (s u : State) : Prop where
  rest    : u = { s with
              piu := { s.piu with
                micros := s.piu.micros + 1, millis := u.piu.millis, monitor := u.piu.monitor, timer := u.piu.timer },
              psc := { s.psc with raised := u.psc.raised }, pch := { s.pch with channels := u.pch.channels },
              bli := { s.bli with txUp := s.bli.txUp.map cellLater, txDown := s.bli.txDown.map cellLater } }
  chans   : ∀ p, u.chan p = { s.chan p with state := (u.chan p).state, wire := wireLater (s.chan p).wire }
  milli   : (s.piu.micros + 1) % 1000 = 0 → MilliTick s u
  between : (s.piu.micros + 1) % 1000 ≠ 0 → u.piu.millis = s.piu.millis ∧ u.piu.monitor = s.piu.monitor ∧
              u.piu.timer = s.piu.timer ∧ u.psc.raised = s.psc.raised ∧ ∀ p, (u.chan p).state = (s.chan p).state

/-- What a microsecond never changes: all that only a command, a cell or the end of a job can change. Of a position
record a verdict that a sampled edge brings may write its results, run id, state, verification set and latest gate
result (R28, R29, R74), and such a verdict may add reports to their queue (R190). -/
structure TickKeeps (s t : State) : Prop where
  outside   : t.strap = s.strap ∧ t.piu.sync = s.piu.sync ∧ t.piu.source = s.piu.source
  settings  : t.pt.trimLimit = s.pt.trimLimit ∧ t.pt.gateReports = s.pt.gateReports
  records   : ∀ p, t.pos p = { s.pos p with
                state := (t.pos p).state, runId := (t.pos p).runId, results := (t.pos p).results,
                verification := (t.pos p).verification, latestGate := (t.pos p).latestGate }
  levels    : ∀ p, (t.line p).level = (s.line p).level
  plan      : t.psc.plan = s.psc.plan
  tables    : t.rules = s.rules ∧ t.pch.profile = s.pch.profile ∧ t.pch.identify = s.pch.identify ∧
                t.pch.registerRead = s.pch.registerRead
  store     : t.srs = s.srs
  receivers : t.bli.rxUp = s.bli.rxUp ∧ t.bli.rxDown = s.bli.rxDown
  answers   : t.bli.answers = s.bli.answers ∧ t.bli.owed = s.bli.owed ∧ t.bli.held = s.bli.held ∧
                t.bli.fullPending = s.bli.fullPending
  forward   : t.bli.forward = s.bli.forward ∧ t.bli.downBuffer = s.bli.downBuffer
  reports   : ∃ l, t.bli.reports = s.bli.reports ++ l
  tallies   : t.bli.upErrors = s.bli.upErrors ∧ t.bli.downErrors = s.bli.downErrors ∧
                t.bli.forwardDrops = s.bli.forwardDrops ∧ t.bli.commandDrops = s.bli.commandDrops ∧
                t.bli.sealDrops = s.bli.sealDrops

/-- When an act of the module's own is due: a gate timeout at the Tg-th tick after its start (R72), the end of sending
with nothing left to send (R138), a reply timeout at its T-th tick (R139), a start that an IDLE channel can make (R142),
REF_LOST at a quiet time of 1000 ms (R11), a raised expiry (R13, R45), a job to start (R172), a cell boundary or fill
with a cell to send (R182, R183), a held answer with a free place (R185), and a report to build (R190). -/
def IsDue (s : State) (i : Instr) : Prop :=
  match i with
  | .gateTimeout p => ∃ a r g, Runs s a r ∧ s.gate p = some g ∧ g.state ≠ .done ∧
      r.timeout.toNat ≤ (s.piu.millis.toNat + 4294967296 - g.timeoutStart.toNat) % 4294967296
  | .sendingEnd p => ∃ t, (s.chan p).state = .sending t ∧ (s.chan p).wire = []
  | .replyTimeout p => ∃ t waited, (s.chan p).state = .awaitReply t waited ∧ t.timeout ≤ waited
  | .transactionStart p => (s.chan p).state = .idle ∧
      ((s.chan p).internal ≠ none ∨ ∃ r, (s.chan p).relay = .waiting r ∧ r.sendable = true)
  | .refLost => ∃ quiet, s.piu.monitor = .armed quiet ∧ 1000 ≤ quiet
  | .triggerDelayExpiry => ∃ n, (.triggerDelay, n) ∈ s.psc.raised
  | .windowEnd => ∃ n, (.window, n) ∈ s.psc.raised
  | .settleExpiry => ∃ n, (.settle, n) ∈ s.psc.raised
  | .jobStart => s.srs.phase = .over ∧ s.srs.running = none ∧ s.srs.queue ≠ []
  | .upCellBoundary => (∃ x, s.bli.txUp = some x ∧ x.left = 0) ∨
      (s.bli.txUp = none ∧ (s.bli.forward ≠ [] ∨ s.bli.answers ≠ [] ∨ s.bli.reports ≠ []))
  | .downForwardSend => (∃ x, s.bli.txDown = some x ∧ x.left = 0) ∨ (s.bli.txDown = none ∧ s.bli.downBuffer ≠ [])
  | .heldAnswerTaken => s.bli.held ≠ [] ∧ s.bli.answers.length < 8
  | .reportBuild => ¬ Reported s
  | _ => False

/-- The start-up scan has begun: no job runs, none is queued, and no slot is reserved (R177). -/
def ScanBegun (r : Srs) : Prop := r.phase = .scanning ∧ r.running = none ∧ r.queue = [] ∧ r.reserved = []

/-- The store's work never rests with a job waiting: outside the scan a waiting job has one running before it; the wait
before the scan has an operation to wait for, the scan itself has nothing running, queued or reserved, and in both no
flow is live (R172, R177); the write pointer names a slot (R166). -/
def StoreSettled (s : State) : Prop :=
  (s.srs.phase = .over → s.srs.running = none → s.srs.queue = []) ∧
    (s.srs.phase = .waiting → s.srs.running ≠ none) ∧ (s.srs.phase = .scanning → ScanBegun s.srs) ∧
    (s.srs.phase ≠ .over → ∀ p, s.flow p = none) ∧ s.srs.pointer < 1024

/-- The store is settled, and no position stands twice in the running set (R41). -/
def Settled (s : State) : Prop := StoreSettled s ∧ s.psc.running.Nodup

/-- No step is active (R41). -/
def NoStep (s : State) : Prop := s.psc.stepState = .idle ∨ s.psc.stepState = .complete

/-- What the bench link holds after power-on or a FULL reset (R191). -/
structure QuietLink (b : Bli) : Prop where
  receivers : b.rxUp = .hunt ∧ b.rxDown = .hunt
  fill      : b.txUp = none ∧ b.txDown = none
  queues    : b.downBuffer = [] ∧ b.forward = [] ∧ b.answers = [] ∧ b.reports = []
  owed      : b.owed = 0 ∧ b.held = []
  marks     : b.markRefLost = false ∧ b.markStepState = false ∧ b.markStore = false
  posMarks  : ∀ p, atPos b.marks p = { verdict := none, identify := false, gate := false }
  sealDone  : b.sealDone = []
  tallies   : b.upErrors = 0 ∧ b.downErrors = 0 ∧ b.forwardDrops = 0 ∧ b.commandDrops = 0 ∧ b.sealDrops = 0
  takes     : b.fullPending = false

/-- A meter line right after a reset of an EMPTY position: three copies of its level, no edge accepted, no
tally (R3, R18). -/
def FreshLine (l : Line) : Prop :=
  l.oldest = l.level ∧ l.middle = l.level ∧ l.newest = l.level ∧ l.filtered = l.level ∧
    l.lastAccepted = none ∧ l.tally = 0

/-- The rule table after power-on or a FULL reset: rule 15 relays every code in LOADED, TRIMMED and VERIFIED
and waits 500 ms for a reply; every other rule is disabled (R164). -/
def ResetRules (v : Vector FrameRule 16) : Prop :=
  (∀ i : Fin 16, i.val < 15 → v[i.val].enabled = false) ∧
    v[15] =
      { enabled := true, value := 0, mask := 0xFFFF, action := .relay,
        allowed := { loaded := true, trimmed := true, verified := true, sealed := false },
        expectReply := true, timeout := 500, patches := [], ack := none }

/-- What power-on and a FULL reset leave in every block (R18, R36, R56, R80, R116, R147, R164, R177, R191).
The store's contents, its jobs, its reservations and its scan phase are said apart. -/
structure PowerOnValues (t : State) : Prop where
  records   : ∀ p, EmptyRecord (t.pos p)
  settings  : t.pt.trimLimit = 3 ∧ t.pt.gateReports = false
  lines     : ∀ p, FreshLine (t.line p)
  counts    : t.piu.micros = 0 ∧ t.piu.millis = 0
  monitor   : t.piu.monitor = .disarmed
  timer     : t.piu.timer.counting = false ∧ t.piu.timer.count = 0 ∧ t.piu.timer.matchValue = 0 ∧
                t.piu.timer.clock = .ms ∧ t.piu.timer.remainder = 0
  plan      : ∀ n : Fin 32, t.psc.plan[n.val] = none
  step      : t.psc.stepState = .idle ∧ t.psc.active = none ∧ t.psc.last = none ∧ t.psc.queued = none ∧
                t.psc.running = [] ∧ t.psc.timerUse = .none ∧ t.psc.lastEvent = none
  work      : ∀ p, t.gate p = none ∧ t.window p = none ∧ t.reg p = none
  profile   : t.pch.profile =
                { divisor := 103, sevenBits := false, parity := .none, gap := 35, codeAt := 1,
                  checksum := .none, start := 0 }
  templates : t.pch.identify.body = [] ∧ t.pch.registerRead.body = []
  channels  : ∀ p, t.chan p =
                { state := .idle, wire := (t.chan p).wire,
                  buffer := { bytes := [], truncated := false, charError := false }, internal := none,
                  relay := .empty }
  outcomes  : ∀ p, t.identified p = none
  rules     : ResetRules t.rules
  store     : t.srs.lastEvent = none ∧ ∀ p, t.flow p = none
  link      : QuietLink t.bli

end Sys2Proof.Safety
end

