-- ==== Sys2Proof/WellFormed.lean ====
section
/-! DEFINITION. Which terms of `Instr` stand for something that can reach the module: an operand that a
cell, a line or the flash can carry. Judging the value of an operand is the owner's work (R184), not this
check's. -/

namespace Sys2Proof

/-- A template body that fits the payload of one cell: 7 bytes stand before it (11.7, R181). -/
def TemplateRecord.fits (r : TemplateRecord) : Bool := decide (r.body.length ≤ 243)

/-- A term whose operands can reach the module.
* A reply has at least the character whose start bit began it (R139, R140).
* The marks a collect job can fail on are those of store slots (R174).
* A cell has at most 258 characters (11.1).
* A body, a step list and a frame fit the 250 payload bytes of a cell (R181). -/
def Instr.wf : Instr → Bool
  | .replyEnd _ chars => !chars.isEmpty
  | .collectJobEnd failed => failed.all (fun n => decide (n < Config.storeSlots))
  | .upCellReceived chars => decide (chars.length ≤ 258)
  | .downCellReceived chars => decide (chars.length ≤ 258)
  | .templateWrite _ _ r => r.fits
  | .verifyEvaluate _ _ steps => decide (steps.length ≤ 247)
  | .port _ _ frame => decide (frame.length ≤ 249)
  | _ => true

end Sys2Proof
end

