-- ==== Sys2Proof/Certificates/Slice0/Obligations.lean ====
section
/-! DEFINITION. What is claimed of the module: one closed proposition for each claim, named for what it states. -/

section
open Sys2Proof Sys2Proof.Machine Sys2Proof.Safety

/-! ### Steps of the queue -/

/-- A step with a command at the front of the queue is that command's meaning on the state with the queue's
rest. No command stops the machine, and none touches the queue of waiting commands or the address strap (the
strap is read at the pins, section 6 of the scope file; the queue is the model's, assumption 22). -/
def Obligations.StepRunsFrontCommand : Prop :=
  (∀ (c : Instr) (s : State), step { s with pending := c :: s.pending } = exec c s) ∧
  (∀ (c : Instr) (s : State), ∃ t, exec c s = .next t ∧ t.pending = s.pending ∧ t.strap = s.strap)

/-- What the module does with nothing waiting, which is the model's choice of a tick (assumptions 2 and 3): a step makes
one of the acts that are due, as that act's meaning says, and each act is due exactly when its rule says (`IsDue`: R11,
R13, R72, R138, R139, R142, R172, R182, R183, R185, R190). With none due it lets one microsecond pass (`Ticked`): the
microsecond count of R1 advances, characters and cells on their way out go on (R133, R183), every thousandth is a tick of
the millisecond count (R7), of the quiet time (R11), of the waits for replies (R139) and of a window timer that counts
MS (R13), and then each line is sampled and filtered (R1, R2), a change that its edge select picks being a candidate edge
(R4). The lines are taken in ascending order, and a sampled edge before the acts that the tick makes due (assumption
34). A microsecond changes nothing that only a command, a cell or the end of a job can change; a verdict that a sampled
edge brings is recorded, and may add reports to their queue (R28, R190). OPT_TX shows the bits of a character one after
another, each for its bit time (R133), and is high with nothing to send (the levels are assumption 31). -/
def Obligations.IdleStepActsOrTicks : Prop :=
  (∀ (s : State) (i : Instr), i ∈ dueActs s ↔ IsDue s i) ∧
  (∀ s : State, s.pending = [] → dueActs s ≠ [] → ∃ i ∈ dueActs s, step s = exec i s) ∧
  (∀ s : State, s.pending = [] → dueActs s = [] → ∃ t, step s = .next t ∧ t.piu.micros = s.piu.micros + 1 ∧
     t.piu.millis = (if (s.piu.micros + 1) % 1000 = 0 then s.piu.millis + 1 else s.piu.millis) ∧ TickKeeps s t) ∧
  (∀ s : State, s.pending = [] → dueActs s = [] → FiltersFit s → ∃ u t, Ticked s u ∧
     SampledFrom [0, 1, 2, 3, 4, 5, 6, 7, 8, 9, 10, 11] u t ∧ step s = .next t) ∧
  ∀ c : Channel, (c.wire = [] → c.txLevel = true) ∧
    ∀ (f : Profile) (b : Byte) (rest : List WireChar) (k : Nat), k < (levelsOf f b).length * (f.divisor + 1) →
      c.wire = { sentChar f b with left := (levelsOf f b).length * (f.divisor + 1) - k } :: rest →
      (levelsOf f b)[k / (f.divisor + 1)]? = some c.txLevel

/-! ### Resets -/

/-- The state right after power-on holds in every block what the reset rules give it, and meets what every step
keeps. The strap, the line levels and the store's contents it begins with are the model's choice (assumption 1),
and so are the write pointer and the next seal number that stand during the scan (assumption 4). -/
def Obligations.ResetStateHoldsPowerOnValues : Prop :=
  (PowerOnValues State.reset ∧ ScanBegun State.reset.srs ∧ ∀ p, (State.reset.chan p).wire = []) ∧
  (Invariant State.reset ∧ Served State.reset ∧ Settled State.reset ∧ Reported State.reset)

/-- POWER_ON brings every block to its power-on values and begins the start-up scan; the lines keep their levels, and
a channel that was sending completes the character on its line and sends no more (R144, R147). Of the store it changes
only the slots that the running flash operation works on (R177); for an erase these are the slots of its sector, and
which of them a cut erase leaves erased is the model's choice (assumption 9) and not said here. A header operation cut
by the loss of power leaves its slot as it was, with a header whose check fails, or with the whole header (what a torn act leaves is the model's
choice, assumption 9). -/
def Obligations.PowerOnResetsEveryBlock : Prop :=
  (∀ (cut : FlashCut) (s : State), StoreCanonical s → ∃ t, exec (.powerOn cut) s = .next t ∧
     PowerOnValues t ∧ ScanBegun t.srs ∧
     (∀ p, (t.line p).level = (s.line p).level ∧ (t.chan p).wire = (s.chan p).wire.take 1) ∧
       t.piu.sync = s.piu.sync ∧ t.piu.source = s.piu.source ∧
     (∀ n, (∀ j, s.srs.running = some j → ∀ a ∈ jobActs s.srs j, a.slot ≠ n) → t.srs.slot n = s.srs.slot n)) ∧
  (∀ (cut : FlashCut) (s : State) (slot : Nat) (h : Header), StoreCanonical s →
     s.srs.running = some (.header slot h) → ∃ t, exec (.powerOn cut) s = .next t ∧
       t.srs.slot slot =
         (if 1 ≤ cut.done then { s.srs.slot slot with header := .good h }
          else if cut.torn then { s.srs.slot slot with header := .spoiled }
          else s.srs.slot slot) ∧
       ∀ n, n ≠ slot → t.srs.slot n = s.srs.slot n)

/-- MODULE_RESET with the choice FULL is answered OK; nothing else changes, but that the answer is the one at
whose last byte the reset acts (R187). There every block takes its power-on values, the store keeps its contents
and its running flash operation, and waits for it with its queued jobs and reservations, or with none running begins
the scan (R177); a channel that was sending completes the character on its line (R144, R147). The event of the row and the boundary at which the UP transmitter ends that
answer are one; while the transmitter sends another cell, or fill, the event changes nothing (assumption 21). -/
def Obligations.FullResetIsAnsweredThenActs : Prop :=
  (∀ (tag : Byte) (s : State), Ready s →
     exec (.moduleResetFull tag) s =
       .next { s with bli := { s.bli with
         answers := s.bli.answers ++ [{ cell := answerTo s tag [0x00], actsFull := true }],
         fullPending := true } }) ∧
  ((∀ (s : State) (x : Sending), s.bli.txUp = some x → x.out.actsFull = true → ∃ t, exec .fullResetAct s = .next t ∧
     PowerOnValues t ∧ t.srs.contents = s.srs.contents ∧ (s.srs.running = none → ScanBegun t.srs) ∧
     (s.srs.running ≠ none → t.srs.phase = .waiting ∧ t.srs.running = s.srs.running ∧ t.srs.queue = s.srs.queue ∧
       t.srs.reserved = s.srs.reserved) ∧
     (∀ p, (t.line p).level = (s.line p).level ∧ (t.chan p).wire = (s.chan p).wire.take 1) ∧
     t.piu.sync = s.piu.sync ∧ t.piu.source = s.piu.source) ∧
   (∀ (s : State) (x : Sending), s.bli.txUp = some x → x.out.actsFull = true →
     exec .upCellBoundary s = exec .fullResetAct s) ∧
   ∀ s : State, (∀ x, s.bli.txUp = some x → x.out.actsFull = false) → exec .fullResetAct s = .next s)

/-- A RUN reset (R187) as the blocks' rules give it: the input side (R19), the step state with the verdict ABORTED for
every running position, which demotes a VERIFIED one (R57, R37), the gate contexts (R81), the window and register
work (R116), and the channels, whose relays, trim and seal flows and IDENTIFY work end with ABORTED, their answers
queued or held (R147). Tables, settings, the store and its queued jobs stay (R173), and the position records but for
what the ABORTED outcomes change (R37). Addressed, its OK answer comes ahead of those of the relays it aborts. A
running position has no trim or seal work (R27), which the verdicts' clause takes as a premise for that position. The
flags of an ABORTED answer are the model's choice (assumption 38). -/
def Obligations.RunResetActs : Prop :=
  ∀ (via : Via) (s : State), Takes via s → StepsConsistent s → ∃ t,
    exec (.moduleResetRun via) s = .next (buildDue t) ∧
    t.psc.stepState = .idle ∧ t.psc.active = none ∧ t.psc.queued = none ∧ t.psc.running = [] ∧
    t.psc.timerUse = .none ∧ t.psc.plan = s.psc.plan ∧
    t.psc.last = (if s.stepActive then s.psc.active else s.psc.last) ∧
    (s.stepActive = true → (∀ p, t.gate p = none ∧ t.window p = none ∧ t.reg p = none) ∧
      t.psc.lastEvent = some .aborted ∧ t.bli.markStepState = true) ∧
    t.piu.monitor = .disarmed ∧ t.piu.timer.counting = false ∧ t.piu.timer.count = 0 ∧
    t.piu.timer.remainder = 0 ∧ t.piu.micros = s.piu.micros ∧ t.piu.millis = s.piu.millis ∧
    t.piu.sync = s.piu.sync ∧ t.piu.source = s.piu.source ∧
    (∀ p, (t.pos p).line = (s.pos p).line ∧
      t.line p =
        { level := (s.line p).level, oldest := (s.line p).level ^^ (s.pos p).line.inverted,
          middle := (s.line p).level ^^ (s.pos p).line.inverted,
          newest := (s.line p).level ^^ (s.pos p).line.inverted,
          filtered := (s.line p).level ^^ (s.pos p).line.inverted, lastAccepted := none, tally := 0 }) ∧
    (∀ p, (t.chan p).transaction = none ∧ (t.chan p).internal = none ∧
      ∀ r, (t.chan p).relay ≠ .waiting r) ∧
    t.pch.profile = s.pch.profile ∧ t.pch.identify = s.pch.identify ∧
    t.pch.registerRead = s.pch.registerRead ∧ t.rules = s.rules ∧ t.pt.trimLimit = s.pt.trimLimit ∧
    t.pt.gateReports = s.pt.gateReports ∧ StoreKept s t ∧
    (∀ p, PortWorkAborted s t p ∧
      ((s.stepActive = false ∨ p ∉ s.psc.running) → RecordAborted s t p (s.pos p) ∧
        (t.marks p).verdict = (s.marks p).verdict) ∧
      ∀ a, s.psc.active = some a → p ∈ s.psc.running → (∀ r, RelayWork s p r → r.kind = .plain) →
        ∃ e, e.verdict = .aborted ∧ e.runId = a.run ∧ CutFields s p e.fields ∧
          RecordAborted s t p (recorded a.slot e (s.pos p)) ∧ (t.marks p).verdict = some a.slot) ∧
    (∀ tag, via = .addressed tag → ∃ rest,
      t.bli.answers = s.bli.answers ++ { cell := answerTo s tag [0x00], actsFull := false } :: rest)

/-- A command that meets a full answer queue is dropped without effect and counted; a PORT command already when
the queued and the owed answers come to 8 (R184). While a FULL reset waits for its answer to be sent, no command
is taken, addressed or broadcast, and none is answered or counted (R187). -/
def Obligations.CommandsNotTaken : Prop :=
  (∀ s : State, Awake s →
     (8 ≤ s.bli.answers.length → ∀ i, ((encodeCommand i).isSome = true ∨ ∃ tag, i = .unknownKind tag) →
       exec i s = .next { s with bli := { s.bli with commandDrops := min (s.bli.commandDrops + 1) 65535 } }) ∧
     (8 ≤ s.bli.answers.length + s.bli.owed → ∀ tag position frame,
       exec (.port tag position frame) s =
         .next { s with bli := { s.bli with commandDrops := min (s.bli.commandDrops + 1) 65535 } })) ∧
  (∀ s : State, s.bli.fullPending = true →
     (∀ i, (encodeCommand i).isSome = true → exec i s = .next s) ∧
     (∀ tag, exec (.unknownKind tag) s = .next s) ∧ exec (.moduleResetRun .broadcast) s = .next s ∧
     (∀ slot run, exec (.stepRun .broadcast slot run) s = .next s) ∧
     (∀ slot run, exec (.stepQueue .broadcast slot run) s = .next s) ∧
     exec (.stepAbort .broadcast) s = .next s)

/-! ### Settings, reads, tables -/

/-- STATUS_READ, SETTINGS_WRITE and SETTINGS_READ (R188), with the answer's fields at the places of 11.7. No
tally is cleared and nothing else changes. That the scan byte is 1 during the scan is the model's inference
(assumption 36). A command of a kind that is no command of this part is answered UNKNOWN_KIND, and changes nothing
(R184). -/
def Obligations.StatusAndSettingsCommands : Prop :=
  (∀ (tag : Byte) (s : State), Ready s →
     (∃ l, exec (.statusRead tag) s = .next (answered tag (0x00 :: l) s) ∧ l.length = 43 ∧
       field l 0 2 = [BitVec.ofNat 8 s.strap.toNat, s.psc.stepState.code] ∧
       field l 2 5 = stepRefBytes s.psc.active ∧ field l 7 5 = stepRefBytes s.psc.queued ∧
       field l 12 5 = stepRefBytes s.psc.last ∧
       field l 17 6 = [stepEventCode s.psc.lastEvent, byteOf s.psc.running.length,
         byteOf s.bli.answers.length, byteOf s.bli.owed, byteOf s.bli.held.length,
         byteOf s.bli.reports.length] ∧
       field l 23 2 = beBytes 2 s.bli.upErrors ∧ field l 25 2 = beBytes 2 s.bli.downErrors ∧
       field l 27 2 = beBytes 2 s.bli.forwardDrops ∧ field l 29 2 = beBytes 2 s.bli.commandDrops ∧
       field l 31 2 = beBytes 2 s.bli.sealDrops ∧
       (s.srs.phase = .over → field l 33 1 = [0] ∧ field l 34 2 = beBytes 2 s.srs.freeCount ∧
         field l 36 5 = beBytes 5 s.srs.nextSeal) ∧
       (s.srs.phase ≠ .over → field l 33 8 = [1, 0, 0, 0, 0, 0, 0, 0]) ∧
       field l 41 2 = [byteOf s.pt.trimLimit, boolByte s.pt.gateReports]) ∧
     exec (.settingsRead tag) s =
       .next (answered tag [0x00, byteOf s.pt.trimLimit, boolByte s.pt.gateReports] s) ∧
     (∀ (limit : Byte) (reports : Bool), 1 ≤ limit.toNat → limit.toNat ≤ 7 →
       exec (.settingsWrite tag limit (boolByte reports)) s =
         .next (answered tag [0x00, limit, boolByte reports]
           { s with pt := { s.pt with trimLimit := limit.toNat, gateReports := reports } })) ∧
     ∀ limit reports : Byte, (limit.toNat = 0 ∨ 7 < limit.toNat ∨ 1 < reports.toNat) →
       exec (.settingsWrite tag limit reports) s = .next (answered tag [0x02] s)) ∧
  (∀ (tag : Byte) (s : State), Ready s → exec (.unknownKind tag) s = .next (answered tag [0x04] s))

/-- POSITION_READ and RESULT_READ (R35), with the fields at the places of 11.7. That the byte 'entry present' is 1 for
a present entry is the model's inference (assumption 36). -/
def Obligations.PositionAndResultRead : Prop :=
  ∀ (tag : Byte) (s : State), Ready s →
    (∀ p : Pos, ∃ l f, exec (.positionRead tag (BitVec.ofNat 8 (p.val + 1))) s =
        .next (answered tag (0x00 :: l) s) ∧ l.length = 105 ∧
      field l 0 5 = [BitVec.ofNat 8 (p.val + 1), (s.pos p).state.code, f, (s.pos p).inFlight.code,
        byteOf (s.pos p).trimRounds] ∧
      f.getLsbD 0 = (s.pos p).included ∧ f.getLsbD 1 = (s.pos p).outOfTrim ∧
      f.getLsbD 2 = decide (p ∈ s.psc.running) ∧ f.getLsbD 3 = (s.pos p).correction.isSome ∧
      f.getLsbD 4 = ((s.pos p).correction.bind Correction.phase).isSome ∧
      f.getLsbD 5 = (s.pos p).serial.isSome ∧ f.getLsbD 6 = (s.pos p).runId.isSome ∧
      f.getLsbD 7 = (s.pos p).latestGate.isSome ∧
      field l 5 4 = beBytes 4 (((s.pos p).meter.map MeterConstants.cmut).getD 0) ∧
      field l 9 1 = [lineByte (s.pos p).line] ∧ field l 10 2 = beBytes 2 (s.pos p).line.deadTime ∧
      field l 12 1 = [byteOf (((s.pos p).meter.map MeterConstants.gainWidth).getD 0)] ∧
      field l 13 3 = beBytes 3 (((s.pos p).meter.map MeterConstants.gainUnit).getD 0) ∧
      field l 16 1 = [byteOf (((s.pos p).meter.map MeterConstants.phaseWidth).getD 0)] ∧
      field l 17 3 = beBytes 3 (((s.pos p).meter.map MeterConstants.phaseUnit).getD 0) ∧
      field l 20 2 = intBytes 2 (s.pos p).gain ∧ field l 22 2 = intBytes 2 (s.pos p).phase ∧
      field l 24 2 = intBytes 2 (((s.pos p).correction.map Correction.gain).getD 0) ∧
      field l 26 2 = intBytes 2 (((s.pos p).correction.bind Correction.phase).getD 0) ∧
      field l 28 4 = beBytes 4 ((s.pos p).runId.getD 0).toNat ∧
      field l 32 17 = byteOf ((s.pos p).serial.getD []).length :: padTo 16 ((s.pos p).serial.getD []) ∧
      field l 49 41 = verificationBytes (s.pos p).verification ∧
      field l 90 14 = gateResultBytes (s.pos p).latestGate ∧
      field l 104 1 = [identifyCode (s.identified p)]) ∧
    (∀ b : Byte, (b.toNat = 0 ∨ 12 < b.toNat) →
      exec (.positionRead tag b) s = .next (answered tag [0x02] s)) ∧
    (∀ (p : Pos) (n : Fin 32), ∃ l,
      exec (.resultRead tag (BitVec.ofNat 8 (p.val + 1)) (BitVec.ofNat 8 n.val)) s =
        .next (answered tag (0x00 :: l) s) ∧
      field l 0 3 = [BitVec.ofNat 8 (p.val + 1), BitVec.ofNat 8 n.val, (s.pos p).state.code] ∧
      field l 3 4 = beBytes 4 ((s.pos p).runId.getD 0).toNat ∧
      ((s.pos p).results[n.val] = none → field l 7 1 = [0]) ∧
      ∀ e, (s.pos p).results[n.val] = some e → ∃ f,
        field l 7 4 = [1, e.verdict.code, e.fields.kind.code, f] ∧ f.getLsbD 0 = e.saturated ∧
        f.getLsbD 1 = e.nClamped ∧ field l 11 4 = beBytes 4 e.runId.toNat ∧
        l.drop 15 = entryFieldBytes e.fields) ∧
    ∀ b n : Byte, (b.toNat = 0 ∨ 12 < b.toNat ∨ 31 < n.toNat) →
      exec (.resultRead tag b n) s = .next (answered tag [0x02] s)

/-- PROFILE_WRITE and PROFILE_READ (R132): a profile in its ranges replaces the stored one whole, but in a
reading phase one that changes the checksum kind or start is refused BAD_STATE. TEMPLATE_WRITE and TEMPLATE_READ
(R136): likewise, for a template in the ranges of 8.3. That a write both out of its ranges and barred by a reading
phase is answered BAD_ARG and not BAD_STATE is the model's inference (assumption 18). -/
def Obligations.ProfileAndTemplateCommands : Prop :=
  (∀ (tag : Byte) (s : State), Ready s →
     (∀ r, ¬ ProfileLegal r → exec (.profileWrite tag r) s = .next (answered tag [0x02] s)) ∧
     (∀ r, ProfileLegal r → s.readingPhase = true →
       (s.pch.profile.checksum.code ≠ r.checksum ∨ s.pch.profile.start ≠ r.start.toNat) →
       exec (.profileWrite tag r) s = .next (answered tag [0x03] s)) ∧
     (∀ r, ProfileLegal r →
       (s.readingPhase = true → s.pch.profile.checksum.code = r.checksum ∧ s.pch.profile.start = r.start.toNat) →
       ∃ f, ProfileIs f r ∧
         exec (.profileWrite tag r) s =
           .next (answered tag (0x00 :: r.payload) { s with pch := { s.pch with profile := f } })) ∧
     ∀ r, ProfileIs s.pch.profile r → r.stopBits = 1 → (r.dataBits = 7 ∨ r.dataBits = 8) →
       exec (.profileRead tag) s = .next (answered tag (0x00 :: r.payload) s)) ∧
  (∀ (tag : Byte) (s : State), Ready s →
     (∀ which r, (1 < which.toNat ∨ ¬ TemplateLegal which r) →
       exec (.templateWrite tag which r) s = .next (answered tag [0x02] s)) ∧
     (∀ r, TemplateLegal 0 r → exec (.templateWrite tag 0 r) s =
       .next (answered tag (0x00 :: 0 :: r.payload) { s with pch := { s.pch with identify := r } })) ∧
     (∀ r, TemplateLegal 1 r → s.readingPhase = false → exec (.templateWrite tag 1 r) s =
       .next (answered tag (0x00 :: 1 :: r.payload) { s with pch := { s.pch with registerRead := r } })) ∧
     (∀ r, TemplateLegal 1 r → s.readingPhase = true →
       exec (.templateWrite tag 1 r) s = .next (answered tag [0x03] s)) ∧
     exec (.templateRead tag 0) s = .next (answered tag (0x00 :: 0 :: s.pch.identify.payload) s) ∧
     exec (.templateRead tag 1) s = .next (answered tag (0x00 :: 1 :: s.pch.registerRead.payload) s) ∧
     ∀ which : Byte, 1 < which.toNat → exec (.templateRead tag which) s = .next (answered tag [0x02] s))

/-- RULE_WRITE and RULE_READ (R148, R149): a record that passes every condition replaces the indexed rule whole,
and the answer shows it; any other is refused BAD_ARG. That an allowed-states byte with any of bits 4 to 7 set is
refused (assumption 7), that the enabled, expect reply and ack test present bytes are 0 for no and 1 for yes with any
other refused, and that patch fields past the count and the bytes of an absent ack test are not judged (assumption 36),
is the model's inference. -/
def Obligations.RuleCommands : Prop :=
  ∀ (tag : Byte) (s : State), Ready s →
    (∀ (index : Byte) (r : RuleRecord), (15 < index.toNat ∨ ¬ RuleLegal r) →
      exec (.ruleWrite tag index r) s = .next (answered tag [0x02] s)) ∧
    (∀ (i : Fin 16) (r : RuleRecord), RuleLegal r → ∃ f l, RuleIs f r ∧
      exec (.ruleWrite tag (BitVec.ofNat 8 i.val) r) s =
        .next (answered tag (0x00 :: l) { s with rules := s.rules.set i.val f }) ∧
      l.length = 20 ∧ l.take 11 = (BitVec.ofNat 8 i.val :: r.payload).take 11 ∧
      (1 ≤ r.patchCount.toNat → field l 11 3 = r.patch1.payload) ∧
      (r.patchCount.toNat = 2 → field l 14 3 = r.patch2.payload) ∧
      (r.ackPresent = 1 → field l 17 3 = [1, r.ackOffset, r.ackByte])) ∧
    (∀ i : Fin 16, exec (.ruleRead tag (BitVec.ofNat 8 i.val)) s =
      .next (answered tag (0x00 :: ruleBytes i s.rules[i.val]) s)) ∧
    ∀ index : Byte, 15 < index.toNat → exec (.ruleRead tag index) s = .next (answered tag [0x02] s)

/-- PLAN_WRITE in the order of R38 with the conditions of R39: a slot outside 0..31 or a kind that is none,
BAD_ARG; the slot of the active or the queued step, BAD_STATE; a used field outside its range, BAD_ARG; else the
slot holds the record as it was written. The codes 0 and 1 of the reference edge are the model's (assumption 6).
PLAN_CLEAR and PLAN_READ (R40): the record comes back as it was written, and an EMPTY slot with the kind FFh. That
PLAN_CLEAR's answer shows the slot after the clear is the model's choice (assumption 37). Nothing but the slot changes. -/
def Obligations.PlanCommands : Prop :=
  (∀ (tag : Byte) (r : StepRecord) (s : State), Ready s →
     (∀ slot : Byte, (31 < slot.toNat ∨ 3 < r.kind.toNat) →
       exec (.planWrite tag slot r) s = .next (answered tag [0x02] s)) ∧
     ∀ n : Fin 32, r.kind.toNat ≤ 3 →
       (SlotProtected s n →
         exec (.planWrite tag (BitVec.ofNat 8 n.val) r) s = .next (answered tag [0x03] s)) ∧
       (¬ SlotProtected s n → ¬ StepLegal r →
         exec (.planWrite tag (BitVec.ofNat 8 n.val) r) s = .next (answered tag [0x02] s)) ∧
       (¬ SlotProtected s n → StepLegal r →
         exec (.planWrite tag (BitVec.ofNat 8 n.val) r) s =
           .next (answered tag (0x00 :: BitVec.ofNat 8 n.val :: r.payload)
             { s with psc := { s.psc with plan := s.psc.plan.set n.val (some r) } }))) ∧
  (∀ (tag : Byte) (s : State), Ready s →
     (∀ slot : Byte, 31 < slot.toNat → exec (.planClear tag slot) s = .next (answered tag [0x02] s) ∧
       exec (.planRead tag slot) s = .next (answered tag [0x02] s)) ∧
     ∀ n : Fin 32,
       (SlotProtected s n →
         exec (.planClear tag (BitVec.ofNat 8 n.val)) s = .next (answered tag [0x03] s)) ∧
       (¬ SlotProtected s n → ∃ l,
         exec (.planClear tag (BitVec.ofNat 8 n.val)) s =
           .next (answered tag (0x00 :: l) { s with psc := { s.psc with plan := s.psc.plan.set n.val none } }) ∧
         l.length = 53 ∧ field l 0 2 = [BitVec.ofNat 8 n.val, 0xFF]) ∧
       (∀ r, s.psc.plan[n.val] = some r → exec (.planRead tag (BitVec.ofNat 8 n.val)) s =
         .next (answered tag (0x00 :: BitVec.ofNat 8 n.val :: r.payload) s)) ∧
       (s.psc.plan[n.val] = none → ∃ l, exec (.planRead tag (BitVec.ofNat 8 n.val)) s =
         .next (answered tag (0x00 :: l) s) ∧ l.length = 53 ∧ field l 0 2 = [BitVec.ofNat 8 n.val, 0xFF]))

/-! ### Positions -/

/-- POSITION_LOAD: the judgement of R22 in its order, the record after a load from EMPTY (R23; the last identify
outcome becomes absent, R146) or of a loaded position (R24), and the reload of the line (R3). Nothing else
changes. That a line settings byte or a carried byte with a higher bit set is outside its range is the model's
inference (assumption 7). -/
def Obligations.PositionLoadJudgedAndTaken : Prop :=
  ∀ (tag : Byte) (r : LoadRecord) (s : State), Ready s →
    ((r.position.toNat = 0 ∨ 12 < r.position.toNat ∨ ¬ LoadLegal r) →
      exec (.positionLoad tag r) s = .next (answered tag [0x02] s)) ∧
    ∀ p : Pos, r.position = BitVec.ofNat 8 (p.val + 1) → LoadLegal r →
      (((s.pos p).state = .sealed ∨ (s.pos p).state = .sealing ∨ (s.pos p).inFlight = .trim ∨
          p ∈ s.psc.running) →
        exec (.positionLoad tag r) s = .next (answered tag [0x03] s)) ∧
      ((s.pos p).inFlight ≠ .trim → p ∉ s.psc.running → ∀ e : EdgeSelect, e.code = r.line.toNat / 4 →
        ((s.pos p).state = .empty → ∃ u,
          u = ((s.setPos p (freshRecord r e)).setLine p
            (reloadedLine (s.line p).level (r.line.getLsbD 0))).setIdentified p none ∧
          exec (.positionLoad tag r) s = .next (answered tag (0x00 :: positionBytes u p) u)) ∧
        (((s.pos p).state = .loaded ∨ (s.pos p).state = .trimmed ∨ (s.pos p).state = .verified) →
          (¬ KeptWordsFit r (s.pos p) →
            exec (.positionLoad tag r) s = .next (answered tag [0x02] s)) ∧
          (KeptWordsFit r (s.pos p) → ∃ u,
            u = (s.setPos p (reloadedRecord r e (s.pos p))).setLine p
              (reloadedLine (s.line p).level (r.line.getLsbD 0)) ∧
            exec (.positionLoad tag r) s = .next (answered tag (0x00 :: positionBytes u p) u))))

/-- POSITION_CLEAR (R25): its refusals; an EMPTY position is answered and left; any other gets the EMPTY record of
R20 and a reloaded line, and IDENTIFY work of it that is in progress, or waits, ends with ABORTED, its channel going
on to a relay that waits (R142, R144, R146). A running position is excluded first (R52): its ABORTED verdict and mark,
the end of its work, and of the step if it was the last, which starts a queued step (R47) without the position
(assumption 30). That the exclusion comes before the withdrawal of a waiting IDENTIFY request is the model's choice
(assumption 33), and so is what the line of that channel then sends behind a cut character, and at what levels
(assumptions 31 and 32). POSITION_INCLUDE (R26): its refusals; on sets included; off, for a position that is not running,
clears it. The choice is taken in every life-cycle state and with any write in flight. -/
def Obligations.PositionClearAndInclude : Prop :=
  (∀ (tag : Byte) (s : State), Ready s → Served s →
     (∀ b : Byte, (b.toNat = 0 ∨ 12 < b.toNat) →
       exec (.positionClear tag b) s = .next (answered tag [0x02] s)) ∧
     ∀ p : Pos,
       (((s.pos p).state = .sealing ∨ (s.pos p).inFlight = .trim) →
         exec (.positionClear tag (BitVec.ofNat 8 (p.val + 1))) s = .next (answered tag [0x03] s)) ∧
       ((s.pos p).inFlight = .none → (s.pos p).state = .empty →
         exec (.positionClear tag (BitVec.ofNat 8 (p.val + 1))) s =
           .next (answered tag (0x00 :: positionBytes s p) s)) ∧
       ((s.pos p).inFlight = .none → (s.pos p).state ≠ .empty → (s.pos p).state ≠ .sealing →
         p ∉ s.psc.running → isReadRequest (s.chan p).internal = false → ∃ u, ClearedFrom s u p ∧
           exec (.positionClear tag (BitVec.ofNat 8 (p.val + 1))) s =
             .next (answered tag (0x00 :: positionBytes u p) (buildDue u))) ∧
       ∀ a, (s.pos p).inFlight = .none → (s.pos p).state ≠ .empty → (s.pos p).state ≠ .sealing →
         p ∈ s.psc.running → s.psc.active = some a → StepsConsistent s → NoEmptyIdentify s →
         (isReadRequest (s.chan p).internal = false ∨ (s.readingPhase = true ∧ s.reg p ≠ none)) →
         ∃ t u, Excluded s t p a ∧ ClearedFrom (stepOn t) u p ∧
           exec (.positionClear tag (BitVec.ofNat 8 (p.val + 1))) s =
             .next (answered tag (0x00 :: positionBytes u p) (buildDue u))) ∧
  (∀ (tag : Byte) (s : State), Ready s →
     (∀ b : Byte, (b.toNat = 0 ∨ 12 < b.toNat) →
       exec (.positionIncludeOn tag b) s = .next (answered tag [0x02] s) ∧
       exec (.positionIncludeOff tag b) s = .next (answered tag [0x02] s)) ∧
     ∀ p : Pos,
       ((s.pos p).state = .empty →
         exec (.positionIncludeOn tag (BitVec.ofNat 8 (p.val + 1))) s = .next (answered tag [0x03] s) ∧
         exec (.positionIncludeOff tag (BitVec.ofNat 8 (p.val + 1))) s = .next (answered tag [0x03] s)) ∧
       ((s.pos p).state ≠ .empty → ∃ u, u = s.setPos p { s.pos p with included := true } ∧
         exec (.positionIncludeOn tag (BitVec.ofNat 8 (p.val + 1))) s =
           .next (answered tag (0x00 :: positionBytes u p) u)) ∧
       ((s.pos p).state ≠ .empty → p ∉ s.psc.running → ∃ u,
         u = s.setPos p { s.pos p with included := false } ∧
         exec (.positionIncludeOff tag (BitVec.ofNat 8 (p.val + 1))) s =
           .next (answered tag (0x00 :: positionBytes u p) u)))

/-- An exclusion (R52): POSITION_INCLUDE off for a running position gives it the verdict ABORTED under the active
step's number and run id, ends its gate context, window record and register context, and takes it out of the running
set. In a reading phase its waiting read is withdrawn, or its read in progress cut, and the freed channel goes on
(R113, R142, R144); where it was the last that READ_BEFORE waited for, the step arms (R108). The step goes on while
others run, and completes when it was the last, which starts a queued step (R46, R47). What the line of a freed channel
sends behind a cut character, and at what levels, is the model's (assumptions 31 and 32). -/
def Obligations.ExclusionAbortsPosition : Prop :=
  ∀ (tag : Byte) (p : Pos) (a : StepRef) (s : State), Ready s → Served s → StepsConsistent s →
    (s.pos p).state ≠ .empty → p ∈ s.psc.running → s.psc.active = some a →
    (s.readingPhase = true → NoEmptyIdentify s) →
    ∃ t, Excluded s t p a ∧
      exec (.positionIncludeOff tag (BitVec.ofNat 8 (p.val + 1))) s =
        .next (answered tag (0x00 :: positionBytes (stepOn t) p) (nextStep t))

/-! ### Steps -/

/-- STEP_RUN while no step is active (R48, R42, R43, R44, R51): the eligible positions become the running set;
with none the step completes at once; an ERROR, CREEP or START step arms, and goes on to SETTLING, or to RUNNING
with a delay of 0, where its trigger is taken at the entry. No position and no channel changes. A REGISTER step
at its start (R42, R106, R107): READ_BEFORE, with a read placed for every running position. With an empty
REGISTER_READ template a read at an IDLE channel ends at once with BAD_READING, and the step completes where that
leaves none running (R136, R142). Every step starts by the one start of R42. How a started channel's line sends its frame is the model's
(assumptions 31 and 32). -/
def Obligations.StepRunStartsStep : Prop :=
  (∀ (via : Via) (n : Fin 32) (run : Word32) (r : StepRecord) (s : State), Takes via s → Served s → NoStep s →
     s.psc.plan[n.val] = some r → r.kind.toNat ≤ 2 → ∃ t,
       exec (.stepRun via (BitVec.ofNat 8 n.val) run) s = .next (answeredVia via [0x00] (buildDue t)) ∧
       Beside s t ∧ t.pt = s.pt ∧ t.pch = s.pch ∧ t.piu.lines = s.piu.lines ∧
       t.psc.plan = s.psc.plan ∧ t.psc.queued = none ∧ t.bli.markStepState = true ∧
       ((∀ p, ¬ Eligible (s.pos p)) →
         t.psc.stepState = .complete ∧ t.psc.active = none ∧ t.psc.running = [] ∧
         t.psc.last = some { slot := n, run := run } ∧ t.psc.lastEvent = some .complete ∧
         t.psc.timerUse = .none) ∧
       ((∃ p, Eligible (s.pos p)) →
         t.psc.active = some { slot := n, run := run } ∧ t.psc.last = s.psc.last ∧
         (∀ p, p ∈ t.psc.running ↔ Eligible (s.pos p)) ∧
         ((r.trigger = 1 ∨ (r.trigger = 2 ∧ s.piu.source = false)) →
           t.psc.stepState = .armed ∧ t.psc.lastEvent = some .armed ∧ t.piu = s.piu) ∧
         ((r.trigger = 0 ∨ (r.trigger = 2 ∧ s.piu.source = true)) →
           (0 < r.delay.toNat → t.psc.stepState = .settling ∧ t.psc.lastEvent = some .armed ∧
             t.piu.timer = delayTimerOf r.delay.toNat ∧ t.psc.timerUse = .triggerDelay) ∧
           (r.delay.toNat = 0 → WorkBegun r s t)))) ∧
  (∀ (via : Via) (n : Fin 32) (run : Word32) (r : StepRecord) (s : State), Takes via s → Served s → NoStep s →
     s.psc.plan[n.val] = some r → r.kind = 3 → s.pch.registerRead.body ≠ [] → (∃ p, Eligible (s.pos p)) →
     ∃ t, exec (.stepRun via (BitVec.ofNat 8 n.val) run) s = .next (answeredVia via [0x00] (buildDue t)) ∧
       Beside s t ∧ t.pt = s.pt ∧ t.piu = s.piu ∧ t.psc.plan = s.psc.plan ∧ t.psc.queued = none ∧
       t.psc.stepState = .readBefore ∧ t.psc.active = some { slot := n, run := run } ∧
       (∀ p, p ∈ t.psc.running ↔ Eligible (s.pos p)) ∧
       ∀ p, (p ∈ t.psc.running → ReadPlaced s t p r.digits.toNat none) ∧
         (p ∉ t.psc.running → t.reg p = s.reg p ∧ t.chan p = s.chan p)) ∧
  (∀ (via : Via) (n : Fin 32) (run : Word32) (r : StepRecord) (s : State), Takes via s → Served s → NoStep s →
     s.psc.plan[n.val] = some r → r.kind = 3 → s.pch.registerRead.body = [] → (∃ p, Eligible (s.pos p)) →
     ∃ t, exec (.stepRun via (BitVec.ofNat 8 n.val) run) s = .next (answeredVia via [0x00] (buildDue t)) ∧
       Beside s t ∧ t.psc.plan = s.psc.plan ∧ t.psc.queued = none ∧ t.piu.lines = s.piu.lines ∧
       (∀ p, p ∈ t.psc.running ↔ Eligible (s.pos p) ∧ (s.chan p).state ≠ .idle) ∧
       (∀ p, (Eligible (s.pos p) → EmptyRead s t p { slot := n, run := run } r.digits.toNat none) ∧
         (¬ Eligible (s.pos p) → t.pos p = s.pos p ∧ t.marks p = s.marks p ∧ t.chan p = s.chan p)) ∧
       ((∃ p, Eligible (s.pos p) ∧ (s.chan p).state ≠ .idle) →
         t.psc.stepState = .readBefore ∧ t.psc.active = some { slot := n, run := run }) ∧
       ((∀ p, Eligible (s.pos p) → (s.chan p).state = .idle) →
         t.psc.stepState = .complete ∧ t.psc.active = none ∧ t.psc.last = some { slot := n, run := run } ∧
         t.psc.lastEvent = some .complete ∧ t.bli.markStepState = true ∧ t.psc.timerUse = .none)) ∧
  (∀ (via : Via) (n : Fin 32) (run : Word32) (s : State), Takes via s → NoStep s → s.psc.plan[n.val] ≠ none →
     exec (.stepRun via (BitVec.ofNat 8 n.val) run) s =
       .next (answeredVia via [0x00] (buildDue (quiesce (startStep { slot := n, run := run } (unqueued s))))))

/-- STEP_RUN while a step is active (R48): that step is aborted and becomes the last step, its running positions
receive ABORTED, its waiting reads are withdrawn and those in progress cut, their channels going on (R113, R142, R144),
the queue is emptied, and the named step starts as any step does; first it is one that waits for its SYNC edge, and
then any. STEP_ABORT (R50): no effect in IDLE, IDLE from COMPLETE, and in any active state the abort of the step with
ABORTED for every running position, an empty queue, and IDLE. What the line of a freed channel sends behind a cut
character, and at what levels, is the model's (assumptions 31 and 32). -/
def Obligations.ActiveStepIsAborted : Prop :=
  (∀ (via : Via) (n : Fin 32) (run : Word32) (r : StepRecord) (a : StepRef) (s : State), Takes via s →
     Served s → NoEmptyIdentify s → s.stepActive = true → s.psc.active = some a → s.psc.plan[n.val] = some r →
     r.kind.toNat ≤ 2 → r.trigger = 1 → (∃ p, Eligible (s.pos p)) → ∃ t,
       exec (.stepRun via (BitVec.ofNat 8 n.val) run) s = .next (answeredVia via [0x00] (buildDue t)) ∧
       AllCut s t a .aborted ∧ Beside s t ∧ (∀ p, ReadEnded s p (t.chan p) ∧ t.line p = s.line p) ∧
       t.psc.stepState = .armed ∧ t.psc.active = some { slot := n, run := run } ∧ t.psc.last = some a ∧
       t.psc.queued = none ∧ t.psc.lastEvent = some .armed ∧ t.bli.markStepState = true ∧
       t.psc.plan = s.psc.plan ∧ (∀ p, p ∈ t.psc.running ↔ Eligible (s.pos p)) ∧
       (∀ p, t.gate p = none ∧ t.window p = none ∧ t.reg p = none) ∧
       t.psc.timerUse = .none ∧ t.piu.timer.counting = false ∧ t.piu.monitor = .disarmed) ∧
  (∀ (via : Via) (s : State), Takes via s →
     (s.psc.stepState = .idle → exec (.stepAbort via) s = .next (answeredVia via [0x00] s)) ∧
     (s.psc.stepState = .complete →
       exec (.stepAbort via) s =
         .next (answeredVia via [0x00] { s with psc := { s.psc with stepState := .idle } })) ∧
     ∀ a, s.stepActive = true → s.psc.active = some a → Served s → NoEmptyIdentify s → ∃ t, Aborted s t a ∧
       exec (.stepAbort via) s = .next (answeredVia via [0x00] (buildDue (unqueued t))) ∧
       ∀ (n : Fin 32) (run : Word32), s.psc.plan[n.val] ≠ none →
         exec (.stepRun via (BitVec.ofNat 8 n.val) run) s =
           .next (answeredVia via [0x00] (buildDue (quiesce (startStep { slot := n, run := run } (unqueued t))))))

/-- STEP_QUEUE (R49): while a step is active the named step replaces the queued one and nothing else changes;
otherwise it starts as STEP_RUN starts it. A slot out of range or EMPTY refuses STEP_RUN and STEP_QUEUE with
BAD_ARG; a broadcast so refused leaves no trace (R51). -/
def Obligations.StepQueueHoldsOrStarts : Prop :=
  ∀ (via : Via) (run : Word32) (s : State), Takes via s →
    (∀ n : Fin 32, s.psc.plan[n.val].isSome = true →
      (s.stepActive = true →
        exec (.stepQueue via (BitVec.ofNat 8 n.val) run) s =
          .next (answeredVia via [0x00]
            { s with psc := { s.psc with queued := some { slot := n, run := run } } })) ∧
      (NoStep s → s.psc.queued = none →
        exec (.stepQueue via (BitVec.ofNat 8 n.val) run) s =
          exec (.stepRun via (BitVec.ofNat 8 n.val) run) s)) ∧
    (∀ b : Byte, 31 < b.toNat → exec (.stepRun via b run) s = .next (answeredVia via [0x02] s) ∧
      exec (.stepQueue via b run) s = .next (answeredVia via [0x02] s)) ∧
    ∀ n : Fin 32, s.psc.plan[n.val] = none →
      exec (.stepRun via (BitVec.ofNat 8 n.val) run) s = .next (answeredVia via [0x02] s) ∧
      exec (.stepQueue via (BitVec.ofNat 8 n.val) run) s = .next (answeredVia via [0x02] s)

/-- A rising change of SYNC_IN takes the trigger of an ARMED step whose trigger is SYNC_EDGE and is dropped
otherwise; a falling change is recorded and handed to nobody (R16, R43, R44). A change of SOURCE_READY to
asserted takes the trigger of an ARMED step whose trigger is SOURCE_READY and is dropped otherwise; a change to
not asserted is recorded and handed to nobody (R17, R43, R44). -/
def Obligations.TriggerEdgesBeginArmedStep : Prop :=
  (∀ s : State,
     exec .syncInFall s = .next { s with piu := { s.piu with sync := false } } ∧
     (s.piu.sync = false →
       (∀ a r, Runs s a r → s.psc.stepState = .armed → r.trigger = 1 → r.kind.toNat ≤ 3 → ∃ t,
         exec .syncEdge s = .next (buildDue t) ∧ Beside s t ∧ t.piu.sync = true ∧ t.piu.source = s.piu.source ∧
         t.piu.lines = s.piu.lines ∧ t.pt = s.pt ∧ t.pch = s.pch ∧ t.psc.running = s.psc.running ∧
         t.psc.active = s.psc.active ∧ t.psc.queued = s.psc.queued ∧ t.psc.plan = s.psc.plan ∧
         (0 < r.delay.toNat → t.psc.stepState = .settling ∧ t.piu.timer = delayTimerOf r.delay.toNat ∧
           t.psc.timerUse = .triggerDelay ∧ t.gates = s.gates ∧ t.bli = s.bli) ∧
         (r.delay.toNat = 0 → WorkBegun r s t)) ∧
       ((s.psc.stepState ≠ .armed ∨ ∀ a r, Runs s a r → r.trigger ≠ 1) →
         exec .syncEdge s = .next { s with piu := { s.piu with sync := true } }))) ∧
  (∀ s : State,
     exec .sourceReadyFall s = .next { s with piu := { s.piu with source := false } } ∧
     (s.piu.source = false →
       (∀ a r, Runs s a r → s.psc.stepState = .armed → r.trigger = 2 → r.kind.toNat ≤ 3 → ∃ t,
         exec .sourceReadyAssertion s = .next (buildDue t) ∧ Beside s t ∧ t.piu.source = true ∧
           t.piu.sync = s.piu.sync ∧
         t.piu.lines = s.piu.lines ∧ t.pt = s.pt ∧ t.pch = s.pch ∧ t.psc.running = s.psc.running ∧
         t.psc.active = s.psc.active ∧ t.psc.queued = s.psc.queued ∧ t.psc.plan = s.psc.plan ∧
         (0 < r.delay.toNat → t.psc.stepState = .settling ∧ t.piu.timer = delayTimerOf r.delay.toNat ∧
           t.psc.timerUse = .triggerDelay ∧ t.gates = s.gates ∧ t.bli = s.bli) ∧
         (r.delay.toNat = 0 → WorkBegun r s t)) ∧
       ((s.psc.stepState ≠ .armed ∨ ∀ a r, Runs s a r → r.trigger ≠ 2) →
         exec .sourceReadyAssertion s = .next { s with piu := { s.piu with source := true } })))

/-- The expiry of the trigger delay, taken in SETTLING, brings the step to RUNNING and begins the work of its
kind (R44, R45). An expiry that belongs to an earlier use of the window timer, or that finds the step in a state
its use does not serve, is dropped: it leaves the raised ones and changes nothing else (R45). An expiry that comes
from outside while the timer counts its use is its match (assumption 11). -/
def Obligations.TriggerDelayExpiryBeginsRunning : Prop :=
  (∀ (a : StepRef) (r : StepRecord) (s : State), Runs s a r → r.kind.toNat ≤ 3 →
     s.psc.stepState = .settling → ExpiryDue s .triggerDelay → ∃ t,
       exec .triggerDelayExpiry s = .next (buildDue t) ∧ WorkBegun r s t ∧ Beside s t ∧ t.pt = s.pt ∧ t.pch = s.pch ∧
       t.piu.lines = s.piu.lines ∧ t.piu.sync = s.piu.sync ∧ t.piu.source = s.piu.source ∧
       t.psc.active = s.psc.active ∧ t.psc.running = s.psc.running ∧ t.psc.queued = s.psc.queued ∧
       t.psc.last = s.psc.last ∧ t.psc.plan = s.psc.plan) ∧
  (∀ (n : Nat) (s : State),
     (s.psc.raised = [(.triggerDelay, n)] →
       (s.psc.timerUse ≠ .triggerDelay ∨ n ≠ s.psc.useNo ∨ s.psc.stepState ≠ .settling) →
       exec .triggerDelayExpiry s = .next { s with psc := { s.psc with raised := [] } }) ∧
     (s.psc.raised = [(.window, n)] →
       (s.psc.timerUse ≠ .window ∨ n ≠ s.psc.useNo ∨ s.psc.stepState ≠ .running) →
       exec .windowEnd s = .next { s with psc := { s.psc with raised := [] } }) ∧
     (s.psc.raised = [(.settle, n)] →
       (s.psc.timerUse ≠ .settle ∨ n ≠ s.psc.useNo ∨ s.psc.stepState ≠ .settleAfter) →
       exec .settleExpiry s = .next { s with psc := { s.psc with raised := [] } }))

/-- WINDOW_END of a CREEP or START step: every running position receives its window-end verdict, PASS with the
pulse count for CREEP and FAIL without a first-pulse time for START, and the step completes (R45, R94, R95,
R102). A queued step, whatever its kind and trigger, starts at the completion, with the positions that are eligible
then (R47); shown in full is one that waits for its SYNC edge. A WINDOW_END that comes from outside while the timer
counts the window is its match (assumption 11). -/
def Obligations.WindowEndDecidesPositions : Prop :=
  ∀ (a : StepRef) (r : StepRecord) (s : State), Runs s a r → (r.kind = 1 ∨ r.kind = 2) → Served s →
    s.psc.stepState = .running → ExpiryDue s .window →
    (∃ t, exec .windowEnd s = .next (nextStep t) ∧ StepOver s t ∧ Beside s t ∧ t.pch = s.pch ∧
      t.piu.lines = s.piu.lines ∧
      (∀ p, p ∉ s.psc.running → t.pos p = s.pos p ∧ t.marks p = s.marks p) ∧
      ∀ p, p ∈ s.psc.running → Judged s t p a.slot
        { verdict := if r.kind = 1 then .pass else .fail, runId := a.run, saturated := false, nClamped := false,
          fields := if r.kind = 1 then .creep (((s.window p).map WindowRecord.count).getD 0) else .start none }) ∧
    ∀ q rq, s.psc.queued = some q → s.psc.plan[q.slot.val] = some rq → rq.kind.toNat ≤ 2 → rq.trigger = 1 →
      (∃ p, Eligible (s.pos p)) → ∃ t, exec .windowEnd s = .next (buildDue t) ∧ Beside s t ∧ t.pch = s.pch ∧
        t.psc.stepState = .armed ∧ t.psc.active = some q ∧ t.psc.last = some a ∧ t.psc.queued = none ∧
        t.psc.lastEvent = some .armed ∧ t.bli.markStepState = true ∧
        (∀ p, p ∈ t.psc.running ↔ Eligible (s.pos p)) ∧ ∀ p, t.gate p = none ∧ t.window p = none ∧ t.reg p = none

/-- WINDOW_END of a REGISTER step: the monitor disarms and the step enters SETTLE_AFTER with its register settle
on the timer. The settle's expiry, or a settle of 0 at once, brings READ_AFTER and places the second reads (R45,
R110, R111); with an empty REGISTER_READ template a read at an IDLE channel ends at once with BAD_READING, and the step
completes where that leaves none running (R136, R142). An expiry that comes from outside while the timer counts its
use is its match (assumption 11). How a started channel's line sends its frame is the model's (assumptions 31 and 32). -/
def Obligations.RegisterWindowEndsInSecondReads : Prop :=
  (∀ (a : StepRef) (r : StepRecord) (s : State), Runs s a r → r.kind = 3 → 0 < r.settle.toNat → Served s →
    s.psc.stepState = .running → ExpiryDue s .window → ∃ t,
      exec .windowEnd s = .next (buildDue t) ∧ Beside s t ∧ t.pt = s.pt ∧ t.pch = s.pch ∧ t.gates = s.gates ∧
      t.psc.stepState = .settleAfter ∧ t.psc.lastEvent = some .windowEnd ∧ t.bli.markStepState = true ∧
      t.piu.timer = delayTimerOf r.settle.toNat ∧ t.psc.timerUse = .settle ∧ t.piu.monitor = .disarmed ∧
      t.psc.active = some a ∧ t.psc.running = s.psc.running ∧ t.psc.regs = s.psc.regs) ∧
  (∀ (a : StepRef) (r : StepRecord) (s : State), Runs s a r → r.kind = 3 → Served s → s.psc.running.Nodup →
    s.pch.registerRead.body = [] → (∀ p ∈ s.psc.running, s.reg p ≠ none) → s.psc.running ≠ [] →
    ((∃ p ∈ s.psc.running, (s.chan p).state ≠ .idle) ∨ s.psc.queued = none) →
    ((s.psc.stepState = .settleAfter ∧ ExpiryDue s .settle) ∨
      (s.psc.stepState = .running ∧ ExpiryDue s .window ∧ r.settle.toNat = 0)) →
    ∃ t, (s.psc.stepState = .settleAfter → exec .settleExpiry s = .next (buildDue t)) ∧
      (s.psc.stepState = .running → exec .windowEnd s = .next (buildDue t)) ∧ Beside s t ∧
      (∀ p, (∀ c, p ∈ s.psc.running → s.reg p = some c → EmptyRead s t p a r.digits.toNat c.r0) ∧
        (p ∉ s.psc.running → t.pos p = s.pos p ∧ t.marks p = s.marks p ∧ t.chan p = s.chan p)) ∧
      ((∃ p ∈ s.psc.running, (s.chan p).state ≠ .idle) → t.psc.stepState = .readAfter ∧ t.psc.active = some a ∧
        ∀ p, p ∈ t.psc.running ↔ p ∈ s.psc.running ∧ (s.chan p).state ≠ .idle) ∧
      ((∀ p ∈ s.psc.running, (s.chan p).state = .idle) → StepOver s t)) ∧
  ∀ (a : StepRef) (r : StepRecord) (s : State), Runs s a r → r.kind = 3 → Served s → s.psc.running.Nodup →
    s.pch.registerRead.body ≠ [] →
    ((s.psc.stepState = .settleAfter ∧ ExpiryDue s .settle) ∨
      (s.psc.stepState = .running ∧ ExpiryDue s .window ∧ r.settle.toNat = 0)) →
    ∃ t, (s.psc.stepState = .settleAfter → exec .settleExpiry s = .next (buildDue t)) ∧
      (s.psc.stepState = .running → exec .windowEnd s = .next (buildDue t) ∧ t.psc.lastEvent = some .windowEnd) ∧
      Beside s t ∧ t.pt = s.pt ∧ t.gates = s.gates ∧ t.psc.stepState = .readAfter ∧ t.psc.timerUse = .none ∧
      t.psc.active = some a ∧ t.psc.running = s.psc.running ∧
      ∀ p, (p ∈ s.psc.running → ∀ c, s.reg p = some c → ReadPlaced s t p r.digits.toNat c.r0) ∧
        (p ∉ s.psc.running → t.reg p = s.reg p ∧ t.chan p = s.chan p)

/-- REF_LOST of an armed monitor sets its mark and disarms the monitor; in RUNNING of an ERROR or REGISTER step
every running position receives REF_LOST and the step completes, which starts a queued step (R47), and otherwise
nothing else changes (R11, R53). -/
def Obligations.RefLostEndsStep : Prop :=
  ∀ (quiet : Nat) (s : State), s.piu.monitor = .armed quiet →
    ((s.psc.stepState ≠ .running ∨ ∀ a r, Runs s a r → r.kind = 1 ∨ r.kind = 2) →
      exec .refLost s = .next (buildDue { s with
        piu := { s.piu with monitor := .disarmed }, bli := { s.bli with markRefLost := true } })) ∧
    ∀ a r, Runs s a r → (r.kind = 0 ∨ r.kind = 3) → Served s → s.psc.stepState = .running → ∃ t,
        exec .refLost s = .next (nextStep t) ∧ AllCut s t a .refLost ∧ StepOver s t ∧ Beside s t ∧
        t.bli.markRefLost = true ∧ t.pch = s.pch ∧ t.piu.lines = s.piu.lines

/-! ### Edges, gates and windows -/

/-- A candidate edge (R4 to R7): inside the dead time it is rejected, which raises the tally by 1 up to 255 and
keeps the last accepted edge time; otherwise its instant becomes that time, and with no owner that holds
anything for it nothing but the line changes. A transition the edge select does not pick changes the line alone,
neither its tally nor its last accepted edge time; with BOTH there is none (assumption 12). -/
def Obligations.CandidateEdgeIsJudged : Prop :=
  ∀ (p : Pos) (s : State),
    (¬ Accepted s p → ∃ l v, exec (.candidateEdge p) s = .next (s.setLine p l) ∧ PicksTo s p v ∧
      LineAt s p v l ∧ l.tally = min ((s.line p).tally + 1) 255 ∧ l.lastAccepted = (s.line p).lastAccepted) ∧
    (Accepted s p → Served s → s.gate p = none → s.window p = none →
      ∃ l, exec (.candidateEdge p) s = .next (buildDue (s.setLine p l)) ∧ EdgeTaken s p l ∧
        l.tally = (s.line p).tally) ∧
    ((s.pos p).line.edge ≠ .both → ∃ l v, exec (.unselectedTransition p) s = .next (s.setLine p l) ∧
      PicksTo s p (!v) ∧ LineAt s p v l ∧ l.tally = (s.line p).tally ∧
      l.lastAccepted = (s.line p).lastAccepted) ∧
    ((s.pos p).line.edge = .both → exec (.unselectedTransition p) s = .next s)

/-- A change of REF_IN (R8): of the direction not selected, or less than 50 ns after the last counted edge, it
changes nothing. A counted edge reaches the three consumers and nothing else: every OPEN gate counts it, or
holds at 4,294,967,295 and sets OVERRANGE (R9; the codes of the step's reference edge field are the model's, assumption
6); a REF/K timer takes it by its prescaler, and at its match raises
the expiry of its use (R13); an armed monitor restarts its quiet time (R11). -/
def Obligations.ReferenceEdgeReachesItsConsumers : Prop :=
  ∀ (edge : RefEdge) (gap : Nat) (s : State),
    ((¬ CountsEdge s edge ∨ gap < 50) → exec (.referenceEdge edge gap) s = .next s) ∧
    (CountsEdge s edge → 50 ≤ gap → ∃ t, exec (.referenceEdge edge gap) s = .next t ∧
      (∀ p g, s.gate p = some g → g.state = .opened →
        (g.m < 4294967295 → t.gate p = some { g with m := g.m + 1 }) ∧
        (4294967295 ≤ g.m → t.gate p = some { g with overrange := true })) ∧
      (∀ p, (∀ g, s.gate p = some g → g.state ≠ .opened) → t.gate p = s.gate p) ∧
      (s.piu.monitor = .disarmed → t.piu.monitor = .disarmed) ∧
      (∀ quiet, s.piu.monitor = .armed quiet → t.piu.monitor = .armed 0) ∧
      ((s.piu.timer.counting = false ∨ s.piu.timer.clock = .ms) →
        t.piu.timer = s.piu.timer ∧ t.psc = s.psc) ∧
      (s.piu.timer.counting = true → s.piu.timer.clock = .refK →
        (s.piu.timer.remainder + 1 < s.piu.timer.divisor →
          t.piu.timer = { s.piu.timer with remainder := s.piu.timer.remainder + 1 } ∧ t.psc = s.psc) ∧
        (s.piu.timer.divisor ≤ s.piu.timer.remainder + 1 →
          (s.piu.timer.count + 1 < s.piu.timer.matchValue →
            t.piu.timer = { s.piu.timer with count := s.piu.timer.count + 1, remainder := 0 } ∧ t.psc = s.psc) ∧
          (s.piu.timer.matchValue ≤ s.piu.timer.count + 1 →
            t.piu.timer = { s.piu.timer with counting := false, count := s.piu.timer.matchValue, remainder := 0 } ∧
            t.psc = { s.psc with raised := s.psc.raised ++ [(s.psc.timerUse, s.psc.useNo)] }))) ∧
      t = { s with
        gates := t.gates, psc := t.psc,
        piu := { s.piu with timer := t.piu.timer, monitor := t.piu.monitor } })

/-- An accepted edge at a gate context that does not close a gate: in SEEK it opens the first gate (R59, R60),
in OPEN it is counted (R61), in DONE it changes nothing of the context (R61). Nothing else changes but the line.
-/
def Obligations.EdgeOpensOrCountsGate : Prop :=
  ∀ (p : Pos) (a : StepRef) (r : StepRecord) (g : GateContext) (mt : MeterConstants) (s : State), Runs s a r →
    Served s → Accepted s p → s.gate p = some g → (s.pos p).meter = some mt → 1 ≤ r.cref.toNat →
    r.gateMode.toNat ≤ 1 →
    (g.state = .seek → ∃ l n clamped, EdgeTaken s p l ∧ l.tally = 0 ∧ IsGateLength r mt.cmut n clamped ∧
      exec (.candidateEdge p) s =
        .next (buildDue ((s.setLine p l).setGate p (some (openedGate r mt.cmut n clamped s.piu.millis g))))) ∧
    (∀ lt, g.state = .opened → g.latch = some lt → g.count + 1 < lt.n → ∃ l, EdgeTaken s p l ∧
      l.tally = (s.line p).tally ∧
      exec (.candidateEdge p) s =
        .next (buildDue ((s.setLine p l).setGate p (some { g with count := g.count + 1 })))) ∧
    (g.state = .done → ∃ l, EdgeTaken s p l ∧ l.tally = (s.line p).tally ∧
      exec (.candidateEdge p) s = .next (buildDue (s.setLine p l)))

/-- The accepted edge that brings the count to n closes the gate (R63): outcome by R65 with the tally read,
error by R84, counts by R66 to R69, the latest gate result and its mark (R74, R75). Where the position goes on
(R70), the next gate opens on the edge, with the tally at 0 (R59, R64). -/
def Obligations.ClosingEdgeOpensNextGate : Prop :=
  ∀ (p : Pos) (a : StepRef) (r : StepRecord) (g : GateContext) (lt : GateLatch) (mt : MeterConstants) (s : State),
    Runs s a r → Served s → Accepted s p → s.gate p = some g → g.state = .opened → g.latch = some lt →
    lt.n ≤ g.count + 1 → 1 ≤ lt.cmut → (s.pos p).meter = some mt → 1 ≤ r.cref.toNat → r.gateMode.toNat ≤ 1 →
    ∃ o x h, GateClosed r lt (s.line p).tally { g with count := g.count + 1 } o x h ∧
      (GoesOn r o h → ∃ l n clamped, EdgeTaken s p l ∧ l.tally = 0 ∧ IsGateLength r mt.cmut n clamped ∧
        exec (.candidateEdge p) s =
          .next (buildDue (withGate p l
            { s.pos p with latestGate := some (resultOf o lt x (s.line p).tally { g with count := g.count + 1 }) }
            (openedGate r mt.cmut n clamped s.piu.millis h) (gateMarks s p) s)))

/-- A closing edge after which the position does not go on ends its measurement (R70, R71): OVERRANGE, the
verdict of the statistics when the G-th gate was accepted, or NOISY when the attempts left cannot bring k to G.
The entry, the latest gate result and the marks are written, the context is DONE, and the position leaves its
step (R46), whose completion starts a queued step (R47). -/
def Obligations.ClosingEdgeEndsMeasurement : Prop :=
  ∀ (p : Pos) (a : StepRef) (r : StepRecord) (g : GateContext) (lt : GateLatch) (s : State), Runs s a r → Served s →
    Accepted s p → s.psc.stepState = .running → p ∈ s.psc.running → s.gate p = some g → g.state = .opened →
      g.latch = some lt → lt.n ≤ g.count + 1 → 1 ≤ lt.cmut →
    ∃ o x h, GateClosed r lt (s.line p).tally { g with count := g.count + 1 } o x h ∧
      ∀ v, ((o = .overrange ∧ v = .overrange) ∨
          (o = .accepted ∧ h.accepted = r.gates.toNat ∧
            ∀ mean spread, IsStatistics h (some (mean, spread)) → IsErrorVerdict r mean spread v) ∨
          (o ≠ .overrange ∧ h.accepted ≠ r.gates.toNat ∧ h.accepted + r.extra.toNat < h.attempts ∧ v = .noisy)) →
        ∃ t l st, exec (.candidateEdge p) s = .next (nextStep t) ∧ EdgeTaken s p l ∧ l.tally = (s.line p).tally ∧
          IsStatistics h st ∧ t.line p = l ∧
          t.pos p = recorded a.slot (gateEntry v a.run h st)
            { s.pos p with
              latestGate := some (resultOf o lt x (s.line p).tally { g with count := g.count + 1 }) } ∧
          t.marks p = { gateMarks s p with verdict := some a.slot } ∧ LeavesStep s t p ∧
          ((∃ q ∈ s.psc.running, q ≠ p) → t.gate p = some { h with state := .done })

/-- The gate timeout of a context in SEEK or OPEN ends the position's measurement with NO_PULSE and the figures
of its closed gates; the latest gate result stays, and a step that this completes starts a queued one (R47). A
context in DONE, or none, has no timeout (R72). -/
def Obligations.GateTimeoutGivesNoPulse : Prop :=
  ∀ (p : Pos) (s : State),
    ((s.gate p = none ∨ ∃ g, s.gate p = some g ∧ g.state = .done) → exec (.gateTimeout p) s = .next s) ∧
    ∀ (a : StepRef) (g : GateContext), s.psc.active = some a → Served s → s.psc.stepState = .running →
      p ∈ s.psc.running → s.gate p = some g → g.state ≠ .done →
      ∃ t st, exec (.gateTimeout p) s = .next (nextStep t) ∧ IsStatistics g st ∧
        Judged s t p a.slot (gateEntry .noPulse a.run g st) ∧ t.line p = s.line p ∧ LeavesStep s t p ∧
        ((∃ q ∈ s.psc.running, q ≠ p) → t.gate p = some { g with state := .done })

/-- An accepted edge in the window of a CREEP or START step (R94, R95, R101). A creep edge raises the count, and
above the allowance gives FAIL with the count; the first start edge gives PASS with its time since the window
start, modulo 2^32; a step that this completes starts a queued one (R47). Once the record is decided, or outside
RUNNING, the edge changes nothing there. -/
def Obligations.WindowEdgesCountAndDecide : Prop :=
  ∀ (p : Pos) (a : StepRef) (r : StepRecord) (w : WindowRecord) (s : State), Runs s a r → Served s → Accepted s p →
    s.gate p = none → s.window p = some w →
    ((w.decided = true ∨ s.psc.stepState ≠ .running) → ∃ l, EdgeTaken s p l ∧ l.tally = (s.line p).tally ∧
      exec (.candidateEdge p) s = .next (buildDue (s.setLine p l))) ∧
    (w.decided = false → s.psc.stepState = .running → r.kind = 1 → w.count + 1 ≤ r.allowance.toNat →
      ∃ l, EdgeTaken s p l ∧ l.tally = (s.line p).tally ∧ exec (.candidateEdge p) s =
        .next (buildDue ((s.setLine p l).setWindow p (some { w with count := w.count + 1 })))) ∧
    (w.decided = false → s.psc.stepState = .running → p ∈ s.psc.running →
      (r.kind = 2 ∨ (r.kind = 1 ∧ r.allowance.toNat < w.count + 1)) →
      ∃ t l, exec (.candidateEdge p) s = .next (nextStep t) ∧ EdgeTaken s p l ∧ l.tally = (s.line p).tally ∧
        t.line p = l ∧
        LeavesStep s t p ∧
        Judged s t p a.slot
          { verdict := if r.kind = 1 then .fail else .pass, runId := a.run, saturated := false, nClamped := false,
            fields := if r.kind = 1 then .creep (w.count + 1) else .start (some
              ((s.piu.millis.toNat + 4294967296 - s.psc.windowStart.toNat) % 4294967296)) })

/-! ### Figures -/

/-- The gate error (R84), rounded as R82 names it and held as R85 does; before it is held it is at least
−1,000,000. A gate with m = 0 or OVERRANGE set is given none (R63). -/
def Obligations.GateErrorFormula : Prop :=
  (∀ n cref m cmut : Nat, 1 ≤ m → 1 ≤ cmut → ∃ x,
    NearestInt (((n * cref * 1000 : Nat) - (m * cmut : Nat) : Int) * 1000000) (m * cmut) x ∧ -1000000 ≤ x ∧
    HeldWithin x (gateError n cref m cmut).1 (gateError n cref m cmut).2) ∧
  ∀ (l : GateLatch) (g : GateContext), (g.m = 0 ∨ g.overrange = true → closeError l g = none) ∧
    (1 ≤ g.m → g.overrange = false → closeError l g = some (gateError l.n l.cref g.m l.cmut))

/-- The verdict of an ERROR position from its mean, its spread and the limits (R89), over the mean of R87 and
the spread of R88, as the Arithmetic Unit computes them (R83). A mean of errors within ±999,999 stays within ±999,999.
Where the ending check of R70 asks for them is said with the closing edge. -/
def Obligations.StatisticsAndErrorVerdict : Prop :=
  (∀ (r : StepRecord) (mean : Int) (spread : Nat), IsErrorVerdict r mean spread (errorVerdict r mean spread)) ∧
  (∀ g : GateContext, IsStatistics g (stepStatistics g.errorSum g.bounds g.accepted)) ∧
  ∀ (sum : Int) (lo hi : Int) (k : Nat) (mean : Int) (spread : Nat), |sum| ≤ 999999 * (k : Int) →
    stepStatistics sum (some (lo, hi)) k = some (mean, spread) → |mean| ≤ 999999

/-- The register difference is R1 − R0 modulo 10^digits, in 0..10^digits − 1, and a register that moves back by
d gives 10^digits − d (R91). The register error is the rounded quotient of R92, held and judged as R93 says. -/
def Obligations.RegisterArithmetic : Prop :=
  (∀ digits r0 r1 : Nat, r0 < 10 ^ digits → r1 < 10 ^ digits →
    (r0 ≤ r1 → registerDifference digits r0 r1 = r1 - r0) ∧
    (r1 < r0 → registerDifference digits r0 r1 = 10 ^ digits - (r0 - r1)) ∧
    registerDifference digits r0 r1 < 10 ^ digits) ∧
  ∀ (r : StepRecord) (r0 r1 : Nat), 1 ≤ r.window.toNat → 1 ≤ r.divisor.toNat →
    IsRegisterError (registerDifference r.digits.toNat r0 r1) r.unit.toNat r.cref.toNat r.window.toNat
      r.divisor.toNat (registerErrorOf r r0 r1).1 (registerErrorOf r r0 r1).2 ∧
    ∀ e : Int, registerVerdict r e = (if r.lower.toInt ≤ e ∧ e ≤ r.upper.toInt then .pass else .fail)

/-- CORRECTION_COMPUTE (R117 to R123): refused as a whole, or answered with 13 bytes for each masked position in
ascending order. A SKIPPED position, and one not masked, is not changed; any other gets the targets of R120 and
R121 judged by R122, or NO_CORRECTION. That the four gain target bytes of a SKIPPED or NO_CORRECTION position are zeros
is the model's choice (assumption 6). Nothing but the records changes. -/
def Obligations.CorrectionComputeFormsWords : Prop :=
  ∀ (tag : Byte) (mask : Word16) (a : Byte) (b : Option Byte) (s : State), Ready s →
    ((¬ MaskLegal mask ∨ ¬ ∃ na nb, StepsLegal s a b na nb) →
      exec (.correctionCompute tag mask a b) s = .next (answered tag [0x02] s)) ∧
    ∀ na nb, MaskLegal mask → StepsLegal s a b na nb → ∃ t l,
      exec (.correctionCompute tag mask a b) s =
        .next (answered tag (0x00 :: BitVec.ofNat 8 (maskPositions mask).length :: l) t) ∧
      t = { s with pt := { s.pt with positions := t.pt.positions } } ∧
      l.length = 13 * (maskPositions mask).length ∧
      (∀ p : Pos, mask.getLsbD p.val = false → t.pos p = s.pos p) ∧
      ∀ (i : Nat) (p : Pos), (maskPositions mask)[i]? = some p →
        field l (13 * i) 1 = [BitVec.ofNat 8 (p.val + 1)] ∧
        (¬ TakesPart (s.pos p) → t.pos p = s.pos p ∧
          field l (13 * i + 1) 12 = [3, 0, 0, 0, 0, 0, 0, 0, 0, 0, (s.pos p).state.code, (s.pos p).inFlight.code]) ∧
        ∀ m, (s.pos p).meter = some m → 1 ≤ m.gainUnit → 1 ≤ m.phaseUnit → TakesPart (s.pos p) →
          Corrected m na nb (s.pos p) (t.pos p) (field l (13 * i + 1) 12)

/-- VERIFY_EVALUATE (R127 to R130, R33): refused as a whole, or answered with 5 bytes for each masked position
in ascending order. The order of the list has no effect, and nothing but the records that reach VERIFIED
changes. That the byte 'entry present' is 1 for a present entry is the model's inference (assumption 36). -/
def Obligations.VerifyEvaluateJudgesEntries : Prop :=
  ∀ (tag : Byte) (mask : Word16) (steps : List Byte) (s : State), Ready s →
    ((¬ MaskLegal mask ∨ ¬ ListLegal steps) →
      exec (.verifyEvaluate tag mask steps) s = .next (answered tag [0x02] s)) ∧
    (MaskLegal mask → ListLegal steps → ∃ t l,
      exec (.verifyEvaluate tag mask steps) s =
        .next (answered tag (0x00 :: BitVec.ofNat 8 (maskPositions mask).length :: l) t) ∧
      t = { s with pt := { s.pt with positions := t.pt.positions } } ∧
      l.length = 5 * (maskPositions mask).length ∧
      (∀ p : Pos, mask.getLsbD p.val = false → t.pos p = s.pos p) ∧
      ∀ (i : Nat) (p : Pos), (maskPositions mask)[i]? = some p →
        field l (5 * i) 1 = [BitVec.ofNat 8 (p.val + 1)] ∧
        (¬ TakesPart (s.pos p) → t.pos p = s.pos p ∧
          field l (5 * i + 1) 4 = [2, (s.pos p).state.code, (s.pos p).inFlight.code, 0]) ∧
        (TakesPart (s.pos p) → Evaluated steps (s.pos p) (t.pos p) (field l (5 * i + 1) 4))) ∧
    ∀ steps', steps'.Perm steps →
      exec (.verifyEvaluate tag mask steps') s = exec (.verifyEvaluate tag mask steps) s

/-! ### Port channels -/

/-- TRANSACTION_START (R138, R142): an IDLE channel takes the request in its internal slot first, and else a
sendable one in its relay slot; the request leaves its slot, the profile and the template are copied and the
frame is built, whose characters go out one after another (R133): the levels of their bits are the model's inference
(assumption 31), and that they follow a character left to be completed with no idle time is its choice (assumption 32).
An owed read takes the slot that an IDENTIFY
request left (R107). A request whose template is empty ends at once with BAD_READING (R136, R146), a read with its
position's verdict (R108, R111). A channel that is not IDLE, or has nothing to start, starts nothing. The end of
sending of a transaction that expects a reply brings AWAIT_REPLY with an empty buffer (R138), and the first start bit
brings RECEIVING (R139). In any other state of the channel these events, the timeout and the end of a reply change
nothing, and the end of sending finds nothing left on its way out (assumption 21). -/
def Obligations.ChannelStartsAndAdvances : Prop :=
  (∀ (p : Pos) (s : State), OthersServed s p →
     (((s.chan p).state ≠ .idle ∨ NothingWaits s p) → exec (.transactionStart p) s = .next (buildDue s)) ∧
     ((s.chan p).state = .idle →
       (∀ r, (s.chan p).internal = none → (s.chan p).relay = .waiting r → r.sendable = true →
         exec (.transactionStart p) s =
           .next (buildDue (s.setChan p (sendingChannel { s.chan p with relay := .empty } (relayOf s r))))) ∧
       ((s.chan p).internal = some .identify → s.pch.identify.body ≠ [] →
         ((∀ c, s.reg p = some c → c.read ≠ .owed) → exec (.transactionStart p) s =
           .next (buildDue
             (s.setChan p (sendingChannel { s.chan p with internal := none } (identifyTransaction s))))) ∧
         (∀ a r c, Runs s a r → s.reg p = some c → c.read = .owed → exec (.transactionStart p) s =
           .next (buildDue
             ((s.setChan p (sendingChannel { s.chan p with internal := some (.registerRead r.digits.toNat) }
               (identifyTransaction s))).setReg p (some { c with read := .placed }))))) ∧
       (∀ digits c, (s.chan p).internal = some (.registerRead digits) → s.pch.registerRead.body ≠ [] →
         s.reg p = some c → exec (.transactionStart p) s =
           .next (buildDue
             ((s.setChan p (sendingChannel { s.chan p with internal := none } (readTransaction s digits))).setReg p
               (some { c with read := .active })))) ∧
       ((s.chan p).internal = some .identify → s.pch.identify.body = [] → NoOwedRead s → (s.pos p).state ≠ .empty →
         (∀ r, (s.chan p).relay = .waiting r → r.sendable = false) →
         exec (.transactionStart p) s =
           .next (buildDue (identifiedAs p .badReading none (s.setChan p { s.chan p with internal := none })))) ∧
       ∀ digits a r c, (s.chan p).internal = some (.registerRead digits) → s.pch.registerRead.body = [] →
         (∀ q, (s.chan p).relay = .waiting q → q.sendable = false) → Runs s a r → p ∈ s.psc.running →
         s.reg p = some c →
         ((s.psc.stepState = .readBefore ∧ ∃ q ∈ s.psc.running, q ≠ p ∧ Awaits s q) ∨ s.psc.stepState = .readAfter) →
         ∃ u, exec (.transactionStart p) s = .next (nextStep u) ∧
           Judged s u p a.slot
             { verdict := .badReading, runId := a.run, saturated := false, nClamped := false,
               fields := .register c.r0 none none } ∧
           LeavesStep (s.setChan p { s.chan p with internal := none }) u p)) ∧
  (∀ (p : Pos) (s : State),
     (∀ t, (s.chan p).state = .sending t → t.expectReply = true → exec (.sendingEnd p) s =
       .next (s.setChan p { s.chan p with
         state := .awaitReply t 0, wire := [],
         buffer := { bytes := [], truncated := false, charError := false } })) ∧
     (∀ t, (s.chan p).state = .sending t →
       exec (.sendingEnd p) s = exec (.sendingEnd p) (s.setChan p { s.chan p with wire := [] })) ∧
     (∀ t waited, (s.chan p).state = .awaitReply t waited →
       exec (.firstStartBit p) s = .next (s.setChan p { s.chan p with state := .receiving t })) ∧
     ((∀ t, (s.chan p).state ≠ .sending t) → exec (.sendingEnd p) s = .next s) ∧
     ((∀ t waited, (s.chan p).state ≠ .awaitReply t waited) →
       exec (.firstStartBit p) s = .next s ∧ exec (.replyTimeout p) s = .next s) ∧
     ((∀ t, (s.chan p).state ≠ .receiving t) → ∀ chars, exec (.replyEnd p chars) s = .next s)) ∧
  ∀ (f : Profile) (frame : List Byte),
    ((frame.map (sentChar f)).map WireChar.left).sum = frameMicros f frame

/-- A relay of a RELAY or TRIM_WRITE frame ends (R139 to R141, R156, R161, R162): its effect on the position
first, then its answer, which joins the queue and frees the channel, or, with the queue full, holds the channel in
REPLY_HELD (R141). That it is held also behind an older held answer, while the queue has room, is the model's choice
(assumption 19). A reply is the characters that came before its gap, the first one faulty in parity or stop bit setting
the character error mark (R133, R140); that a start bit exactly at the end of the gap is none of it is the model's
choice (assumption 25), and so are the flags of an answer without a reply (assumption 38). -/
def Obligations.RelayEndIsAnswered : Prop :=
  ∀ (p : Pos) (s : State) (t : Transaction) (r : RelayRequest) (i : Instr) (o : PortOutcome) (b : ReplyBuffer),
    t.owner = .relay r → (∀ number, r.kind ≠ .seal number) → EndsBy s p t i o b →
    ∃ sum o' u, AnswerSum t.profile b o sum ∧ EndsWith r t.profile b sum o o' ∧ RelayEffect s p r.kind o' u ∧
      (s.bli.answers.length < 8 → s.bli.held = [] → OthersServed s p → NothingWaits s p →
        exec i s = .next (buildDue (answered r.tag (0x00 :: portBytes o' b sum)
          (settled (u.setChan p (idleChannel (s.chan p))))))) ∧
      (8 ≤ s.bli.answers.length ∨ s.bli.held ≠ [] → ∃ a c, AnswerHeld s p r.tag o o' b sum a c ∧
        exec i s = .next (buildDue { settled (u.setChan p c) with
          bli := { (settled s).bli with held := s.bli.held ++ [.channel p] } }))

/-- A seal transaction ends (R32, R161, R170): ACKED makes the position SEALED, any other outcome VERIFIED
again; the write in flight returns to none, the flow is over, and one body job for its slot joins the job queue
with the fields of the record, a VOID one without an acknowledgement. Then its answer joins the queue and frees the
channel, or, with the queue full, holds the channel in REPLY_HELD (R141, R185). That it is held also behind an older held
answer, while the queue has room, is the model's choice (assumption 19), and so are the end of a reply exactly at its gap
(assumption 25) and the flags of an answer without a reply (assumption 38). -/
def Obligations.SealTransactionEndQueuesBody : Prop :=
  ∀ (p : Pos) (s : State) (t : Transaction) (r : RelayRequest) (number : Nat) (fl : SealFlow) (i : Instr)
    (o : PortOutcome) (b : ReplyBuffer),
    t.owner = .relay r → r.kind = .seal number → t.expectReply = true → EndsBy s p t i o b → s.flow p = some fl →
    (s.srs.running ≠ none ∨ s.srs.phase ≠ .over ∨ (s.srs.queue = [] ∧ s.srs.slotState fl.slot = .reserved)) →
    ∃ (sum : ChecksumResult) (o' : PortOutcome) (u : State), AnswerSum t.profile b o sum ∧ EndsWith r t.profile b sum o o' ∧
      u = { s.setPos p { s.pos p with
          state := if o' = .acked then .sealed else .verified, inFlight := .none } with srs := u.srs } ∧
      (s.bli.answers.length < 8 → s.bli.held = [] → OthersServed s p → NothingWaits s p →
        exec i s = .next (buildDue (answered r.tag (0x00 :: portBytes o' b sum)
          (settled (u.setChan p (idleChannel (s.chan p))))))) ∧
      (8 ≤ s.bli.answers.length ∨ s.bli.held ≠ [] → ∃ a c, AnswerHeld s p r.tag o o' b sum a c ∧
        exec i s = .next (buildDue { settled (u.setChan p c) with
          bli := { (settled s).bli with held := s.bli.held ++ [.channel p] } })) ∧
      u.flow p = none ∧ (∀ q, q ≠ p → u.flow q = s.flow q) ∧
      JobJoins s.srs u.srs fl.slot
        (.body fl.slot { number := fl.number, pos := p, address := s.strap }
          { kind := if o' = .acked then .sealed else if o' = .noReply then .void .noReply else .void .nack,
            runId := (s.pos p).runId, serial := (s.pos p).serial, trimRounds := (s.pos p).trimRounds,
            gain := (s.pos p).gain, phase := (s.pos p).phase, verification := (s.pos p).verification })

/-- IDENTIFY (R145): refused without a position, or answered with one outcome for each masked position; SKIPPED
for an EMPTY one, BUSY for an occupied internal slot, and else QUEUED, its request starting at once on an IDLE
channel, with the characters of its frame as assumptions 31 and 32 say. -/
def Obligations.IdentifyQueuesRequests : Prop :=
  ∀ (tag : Byte) (mask : Word16) (s : State), Ready s →
    (¬ MaskLegal mask → exec (.identify tag mask) s = .next (answered tag [0x02] s)) ∧
    (MaskLegal mask → Served s → NoOwedRead s → s.pch.identify.body ≠ [] → ∃ t l,
      exec (.identify tag mask) s =
        .next (answered tag (0x00 :: BitVec.ofNat 8 (maskPositions mask).length :: l) (buildDue t)) ∧
      t = { s with pch := { s.pch with channels := t.pch.channels } } ∧
      l.length = 2 * (maskPositions mask).length ∧
      (∀ p : Pos, mask.getLsbD p.val = false → t.chan p = s.chan p) ∧
      ∀ (k : Nat) (p : Pos), (maskPositions mask)[k]? = some p →
        ((s.pos p).state = .empty → t.chan p = s.chan p ∧ field l (2 * k) 2 = [BitVec.ofNat 8 (p.val + 1), 2]) ∧
        ((s.pos p).state ≠ .empty → (s.chan p).internal ≠ none →
          t.chan p = s.chan p ∧ field l (2 * k) 2 = [BitVec.ofNat 8 (p.val + 1), 1]) ∧
        ((s.pos p).state ≠ .empty → (s.chan p).internal = none → field l (2 * k) 2 = [BitVec.ofNat 8 (p.val + 1), 0] ∧
          ((s.chan p).state = .idle → t.chan p = sendingChannel (s.chan p) (identifyTransaction s)) ∧
          ((s.chan p).state ≠ .idle → t.chan p = { s.chan p with internal := some .identify })))

/-- An IDENTIFY transaction ends (R137, R146): SERIAL with the extracted characters, BAD_READING, or NO_REPLY;
the channel is IDLE again. The end of a reply exactly at its gap is the model's choice (assumption 25). -/
def Obligations.IdentifyEndSetsSerial : Prop :=
  ∀ (p : Pos) (s : State) (t : Transaction) (tpl : TemplateRecord) (i : Instr) (o : PortOutcome) (b : ReplyBuffer),
    t.owner = .identify tpl → t.expectReply = true → EndsBy s p t i o b → OthersServed s p → NothingWaits s p →
    (s.pos p).state ≠ .empty →
    (o = .noReply → exec i s =
      .next (buildDue (identifiedAs p .noReply none (s.setChan p (idleChannel (s.chan p)))))) ∧
    (o = .replied → ∃ sum x, IsSum t.profile b sum ∧ IsSerial tpl t.profile b sum x ∧ exec i s =
      .next (buildDue
        (identifiedAs p (if x = none then .badReading else .serial) x (s.setChan p (idleChannel (s.chan p))))))

/-- A REGISTER_READ transaction ends for an ACTIVE context (R108, R111). In READ_BEFORE a reading becomes R0,
and the last one awaited arms the step; in READ_AFTER it gives the register error and its verdict (R91 to R93).
A failed read gives NO_REPLY or BAD_READING, with the readings held. A step that the verdict completes starts a queued
one (R47). The end of a reply exactly at its gap is the model's choice (assumption 25). -/
def Obligations.RegisterReadEnds : Prop :=
  ∀ (p : Pos) (s : State) (t : Transaction) (digits : Nat) (tpl : TemplateRecord) (i : Instr) (o : PortOutcome)
    (b : ReplyBuffer) (a : StepRef) (r : StepRecord) (c : RegContext),
    t.owner = .registerRead digits tpl → t.expectReply = true → EndsBy s p t i o b → OthersServed s p →
    NothingWaits s p → Runs s a r → p ∈ s.psc.running → s.reg p = some c → c.read = .active →
    ∃ sum x, (o = .replied → IsSum t.profile b sum ∧ IsReading tpl digits t.profile b sum x) ∧
      (o = .noReply → x = none) ∧
      (∀ v, x = some v → s.psc.stepState = .readBefore → (∃ q ∈ s.psc.running, q ≠ p ∧ Awaits s q) →
        exec i s = .next (buildDue ((s.setChan p (idleChannel (s.chan p))).setReg p
          (some { read := .taken, r0 := some v, r1 := c.r1 })))) ∧
      (∀ v, x = some v → s.psc.stepState = .readBefore → (∀ q ∈ s.psc.running, q ≠ p → ¬ Awaits s q) →
        s.psc.running.Nodup → r.trigger = 1 → ∃ u, exec i s = .next (buildDue u) ∧ Beside s u ∧ u.pt = s.pt ∧
          u.piu = s.piu ∧
          u.chan p = idleChannel (s.chan p) ∧ (∀ q, q ≠ p → u.chan q = s.chan q) ∧ u.psc.stepState = .armed ∧
          u.psc.lastEvent = some .armed ∧ u.bli.markStepState = true ∧ u.psc.running = s.psc.running ∧
          u.psc.active = s.psc.active ∧ u.reg p = some { read := .none, r0 := some v, r1 := c.r1 } ∧
          ∀ q ∈ s.psc.running, q ≠ p → u.reg q = (s.reg q).map (fun d => { d with read := .none })) ∧
      (∀ v r0, x = some v → s.psc.stepState = .readAfter → c.r0 = some r0 →
        1 ≤ r.window.toNat → 1 ≤ r.divisor.toNat → ∃ u e sat, exec i s = .next (nextStep u) ∧
          IsRegisterError (registerDifference r.digits.toNat r0 v) r.unit.toNat r.cref.toNat r.window.toNat
            r.divisor.toNat e sat ∧
          Judged s u p a.slot
            { verdict := if r.lower.toInt ≤ e ∧ e ≤ r.upper.toInt then .pass else .fail, runId := a.run,
              saturated := sat, nClamped := false, fields := .register (some r0) (some v) (some e) } ∧
          LeavesStep (s.setChan p (idleChannel (s.chan p))) u p) ∧
      (x = none → (s.psc.stepState = .readBefore ∧ ∃ q ∈ s.psc.running, q ≠ p ∧ Awaits s q) ∨
          s.psc.stepState = .readAfter → ∃ u, exec i s = .next (nextStep u) ∧
        Judged s u p a.slot
          { verdict := if o = .replied then .badReading else .noReply, runId := a.run, saturated := false,
            nClamped := false, fields := .register c.r0 none none } ∧
        LeavesStep (s.setChan p (idleChannel (s.chan p))) u p)

/-- The longest-held answer takes a free place of the answer queue (R185): a channel that held it enters IDLE,
and a relay slot that held it is empty. With none held or no place free, nothing changes. -/
def Obligations.HeldAnswerTakesPlace : Prop :=
  ∀ s : State, ((s.bli.held = [] ∨ 8 ≤ s.bli.answers.length) → exec .heldAnswerTaken s = .next s) ∧
    (s.bli.answers.length < 8 → ∀ (p : Pos) (rest : List HeldAt) (a : PortAnswer),
      (s.bli.held = .channel p :: rest → (s.chan p).state = .replyHeld a → OthersServed s p → NothingWaits s p →
        exec .heldAnswerTaken s = .next (buildDue (answered a.tag (a.reply.status.code :: a.reply.bytes)
          { s.setChan p (idleChannel (s.chan p)) with bli := { s.bli with held := rest } }))) ∧
      (s.bli.held = .slot p :: rest → (s.chan p).relay = .ended a →
        exec .heldAnswerTaken s = .next (answered a.tag (a.reply.status.code :: a.reply.bytes)
          { s.setChan p { s.chan p with relay := .empty } with bli := { s.bli with held := rest } })))

/-! ### Frames and seals -/

/-- A PORT command that is judged (R152): the first refusal that applies is its answer, and nothing else
changes. A position number or a frame length out of range is BAD_ARG, an EMPTY position WRONG_STATE, a frame
without its object code SHORT_FRAME, a code no enabled rule matches NO_RULE, and then the conditions of the
frame's rule in their order (R151, R154, R155, R157, R159, R168). -/
def Obligations.PortFramesRefusedInOrder : Prop :=
  ∀ (tag : Byte) (frame : List Byte) (s : State), PortReady s →
    (∀ position : Byte, (position.toNat = 0 ∨ 12 < position.toNat ∨ frame = [] ∨ 240 < frame.length) →
      exec (.port tag position frame) s = .next (answered tag [0x02] s)) ∧
    (frame ≠ [] → frame.length ≤ 240 → ∀ p : Pos,
      ((s.pos p).state = .empty →
        exec (.port tag (BitVec.ofNat 8 (p.val + 1)) frame) s = .next (answered tag [0x06] s)) ∧
      ((s.pos p).state ≠ .empty →
        (frame.length < s.pch.profile.codeAt + 2 →
          exec (.port tag (BitVec.ofNat 8 (p.val + 1)) frame) s = .next (answered tag [0x08] s)) ∧
        (s.pch.profile.codeAt + 2 ≤ frame.length →
          ((¬ ∃ f, RuleOf s frame f) →
            exec (.port tag (BitVec.ofNat 8 (p.val + 1)) frame) s = .next (answered tag [0x05] s)) ∧
          ∀ f st, RuleOf s frame f → FirstHolds (ruleConditions s p f frame.length) (some st) →
            exec (.port tag (BitVec.ofNat 8 (p.val + 1)) frame) s = .next (answered tag [st.code] s))))

/-- A PORT frame of a RELAY or TRIM_WRITE rule that no condition refuses is accepted (R152, R153): a TRIM_WRITE
sets the write in flight, the patches and the checksum are written, and the request is handed to the channel
with the words it carries (R31, R142, R157, R158, R160). Its answer is owed. How a started channel's line sends the
frame is the model's (assumptions 31 and 32). -/
def Obligations.PortFrameAccepted : Prop :=
  ∀ (tag : Byte) (p : Pos) (frame : List Byte) (f : FrameRule) (s : State), PortReady s → Served s →
    frame ≠ [] → frame.length ≤ 240 → (s.pos p).state ≠ .empty → s.pch.profile.codeAt + 2 ≤ frame.length →
    RuleOf s frame f → FirstHolds (ruleConditions s p f frame.length) none → PatchesApart f →
    (f.action = .relay ∨ f.action = .trimWrite) →
    ∃ frame' r c, PatchedAs s p f frame frame' ∧ HandedRelay s p r c ∧
      r.tag = tag ∧ r.frame = frame' ∧ r.sendable = true ∧ r.expectReply = f.expectReply ∧
      r.timeout = f.timeout ∧ r.ack = f.ack ∧
      (f.action = .relay → r.kind = .plain ∧
        exec (.port tag (BitVec.ofNat 8 (p.val + 1)) frame) s = .next (owing (s.setChan p c))) ∧
      (f.action = .trimWrite → ∃ w, (s.pos p).correction = some w ∧
        (Patches f .phase → r.kind = .trim w.gain w.phase) ∧ (¬ Patches f .phase → r.kind = .trim w.gain none) ∧
        exec (.port tag (BitVec.ofNat 8 (p.val + 1)) frame) s =
          .next (owing ((s.setPos p { s.pos p with inFlight := .trim }).setChan p c)))

/-- A PORT frame of a SEAL rule that no condition refuses is accepted (R168): the next seal number is allocated,
the slot at the write pointer is reserved for it and the pointer advances (R166, R167), a header job for that
slot is queued, the position becomes SEALING with its write in flight, and the request waits in the relay slot,
not yet sendable. -/
def Obligations.SealFrameAccepted : Prop :=
  ∀ (tag : Byte) (p : Pos) (frame : List Byte) (f : FrameRule) (s : State), PortReady s → Served s → StoreCanonical s →
    frame ≠ [] → frame.length ≤ 240 → s.pch.profile.codeAt + 2 ≤ frame.length →
    RuleOf s frame f → FirstHolds (ruleConditions s p f frame.length) none → PatchesApart f → f.action = .seal →
    (s.srs.running ≠ none ∨ s.srs.queue = []) →
    ∃ frame' u, PatchedAs s p f frame frame' ∧ exec (.port tag (BitVec.ofNat 8 (p.val + 1)) frame) s = .next u ∧
      u = owing { ((s.setPos p { s.pos p with state := .sealing, inFlight := .seal }).setChan p
          { s.chan p with
            relay := .waiting {
              tag := tag, frame := frame', sendable := false, expectReply := f.expectReply, timeout := f.timeout,
              kind := .seal s.srs.nextSeal, ack := f.ack } }) with srs := u.srs } ∧
      u.srs.nextSeal = s.srs.nextSeal + 1 ∧ u.srs.pointer = (s.srs.pointer + 1) % 1024 ∧
      ReservationIs s.srs u.srs s.srs.pointer (some { number := s.srs.nextSeal, pos := p }) ∧
      u.flow p = some { number := s.srs.nextSeal, slot := s.srs.pointer } ∧ (∀ q, q ≠ p → u.flow q = s.flow q) ∧
      u.srs.contents = s.srs.contents ∧ u.srs.highest = s.srs.highest ∧ u.srs.phase = s.srs.phase ∧
      u.srs.lastEvent = s.srs.lastEvent ∧
      (s.srs.running ≠ none → u.srs.running = s.srs.running ∧ u.srs.queue = s.srs.queue ++
        [.header s.srs.pointer { number := s.srs.nextSeal, pos := p, address := s.strap }]) ∧
      (s.srs.running = none → u.srs.queue = [] ∧ u.srs.running =
        some (.header s.srs.pointer { number := s.srs.nextSeal, pos := p, address := s.strap }))

/-! ### The store -/

/-- A slot is classified by its contents, by the first test of R165 that holds, and the free count is the run of
ERASED slots outside a queued or running erase, from the write pointer on (R166). -/
def Obligations.SlotsClassifiedAndCounted : Prop :=
  (∀ c : SlotContents,
    (∀ n, c.note = some n → c.classify = (.bad, n)) ∧
    (c.note = none →
      (c = SlotContents.erased → c.classify = (.erased, none)) ∧
      (c ≠ SlotContents.erased →
        ((∀ h, c.header ≠ .good h) → c.classify = (.bad, none)) ∧
        ∀ h, c.header = .good h →
          (c.valid = false → c.classify = (.incomplete, some h.number)) ∧
          (c.valid = true →
            ((∀ b, c.body ≠ .good b) → c.classify = (.bad, some h.number)) ∧
            ∀ b, c.body = .good b → c.classify = (.valid, some h.number))))) ∧
  ∀ r : Srs, r.freeCount ≤ 1024 ∧
    (∀ i, i < r.freeCount → r.slotState ((r.pointer + i) % 1024) = .erased ∧
      .erase ((r.pointer + i) % 1024 / 16) ∉ r.jobs) ∧
    (r.freeCount < 1024 → r.slotState ((r.pointer + r.freeCount) % 1024) ≠ .erased ∨
      .erase ((r.pointer + r.freeCount) % 1024 / 16) ∈ r.jobs)

/-- A header job ends programmed (R143, R165, R169): the slot holds the header, the highest number follows, and
the request that carries the seal number becomes sendable and starts on an IDLE channel. A header job fails
(R165, R169, R173): its slot takes the failure note and loses its reservation. A live flow takes the next slot
with a new header job at the tail of the queue; with no slot free it ends unsent, the position VERIFIED again,
and its answer is STORE_FULL, which joins the queue or, with the queue full, is held in the relay slot (R169, R185). That
it is held also behind an older held answer, while the queue has room, is the model's choice (assumption 19). Without a
live flow no new header is queued. That a failed job leaves the other parts of its slot as they were, beside the note, is the model's choice
(assumption 24), and so is how the started channel's line sends the frame (assumptions 31 and 32). -/
def Obligations.HeaderJobEnds : Prop :=
  (∀ (slot : Nat) (h : Header) (s : State), s.srs.running = some (.header slot h) → s.srs.phase = .over →
     StoreCanonical s → ((s.chan h.pos).internal = none ∨ (s.chan h.pos).state ≠ .idle) →
     ∃ u, JobEnded (.headerJobEnd true) s u ∧
       u = { s with pch := { s.pch with channels := u.pch.channels },
                    srs := { s.srs with contents := u.srs.contents, highest := u.srs.highest, running := none } } ∧
       SlotHolds s.srs u.srs slot { s.srs.slot slot with header := .good h } ∧
       HighestAfter s.srs u.srs h.number slot ∧ (∀ q, q ≠ h.pos → u.chan q = s.chan q) ∧
       ((¬ ∃ r, SealWaits s h.pos h.number r) → u.chan h.pos = s.chan h.pos) ∧
       ∀ r, SealWaits s h.pos h.number r →
         ((s.chan h.pos).state = .idle → u.chan h.pos =
           sendingChannel { s.chan h.pos with relay := .empty } (relayOf s { r with sendable := true })) ∧
         ((s.chan h.pos).state ≠ .idle →
           u.chan h.pos = { s.chan h.pos with relay := .waiting { r with sendable := true } })) ∧
  (∀ (slot : Nat) (h : Header) (s : State), s.srs.running = some (.header slot h) → s.srs.phase = .over →
     StoreCanonical s → (s.srs.reservation slot).isSome = true → s.srs.pointer < 1024 →
     ∃ u, JobEnded (.headerJobEnd false) s u ∧
       SlotHolds s.srs u.srs slot { s.srs.slot slot with note := some (some h.number) } ∧
       HighestAfter s.srs u.srs h.number slot ∧ StoreFigures s.srs u.srs ∧
       (¬ FlowLive s h → ReservationIs s.srs u.srs slot none ∧
         u = { s with srs := { s.srs with
           contents := u.srs.contents, reserved := u.srs.reserved, highest := u.srs.highest, running := none } }) ∧
       (FlowLive s h → 1 ≤ s.srs.freeCount → Rewritten s.srs u.srs slot h.number h.pos ∧ u = { s with srs := u.srs } ∧
         u.srs.queue = s.srs.queue ++ [.header s.srs.pointer h] ∧
         u.flow h.pos = some { number := h.number, slot := s.srs.pointer } ∧ ∀ q, q ≠ h.pos → u.flow q = s.flow q) ∧
       (FlowLive s h → s.srs.freeCount = 0 → ReservationIs s.srs u.srs slot none ∧ u.srs.queue = s.srs.queue ∧
         u.srs.pointer = s.srs.pointer ∧ u.flow h.pos = none ∧ (∀ q, q ≠ h.pos → u.flow q = s.flow q) ∧
         ∀ r, SealWaits s h.pos h.number r →
           (s.bli.answers.length < 8 → s.bli.held = [] → u = answered r.tag [0x0B] (settled
             { (s.setPos h.pos { s.pos h.pos with state := .verified, inFlight := .none }).setChan h.pos
                 { s.chan h.pos with relay := .empty } with srs := u.srs })) ∧
           (8 ≤ s.bli.answers.length ∨ s.bli.held ≠ [] → u =
             { (s.setPos h.pos { s.pos h.pos with state := .verified, inFlight := .none }).setChan h.pos
                 { s.chan h.pos with relay := .ended (.storeFull r.tag) } with
               srs := u.srs,
               bli := { s.bli with owed := s.bli.owed - 1, held := s.bli.held ++ [.slot h.pos] } })))

/-- A body or full-record job ends (R165, R171). Done, its slot is VALID with the parts it programmed, and the
SEAL_DONE entry names the slot. Failed, the slot takes the failure note, and the record is rewritten whole on
the next slot, or lost with none free, which the SEAL_DONE entry says by naming no slot. That a failed job leaves the
other parts of its slot as they were, beside the note, is the model's choice (assumption 24). -/
def Obligations.RecordJobEnds : Prop :=
  ∀ (full : Bool) (slot : Nat) (h : Header) (b : SealBody) (s : State),
    s.srs.running = some (if full then .fullRecord slot h b else .body slot h b) → s.srs.phase = .over →
    StoreCanonical s →
    (∃ u, JobEnded (if full then .fullRecordJobEnd true else .bodyJobEnd true) s u ∧
      SlotHolds s.srs u.srs slot
        { s.srs.slot slot with
          header := if full then .good h else (s.srs.slot slot).header, body := .good b, valid := true } ∧
      ReservationIs s.srs u.srs slot none ∧ HighestAfter s.srs u.srs h.number slot ∧
      u = sealListed { pos := h.pos, number := h.number, slot := some slot, kind := b.kind }
        { s with srs := { s.srs with
          contents := u.srs.contents, reserved := u.srs.reserved, highest := u.srs.highest, running := none } }) ∧
    ((s.srs.reservation slot).isSome = true → s.srs.pointer < 1024 →
      ∃ u, JobEnded (if full then .fullRecordJobEnd false else .bodyJobEnd false) s u ∧
        SlotHolds s.srs u.srs slot { s.srs.slot slot with note := some (some h.number) } ∧
        HighestAfter s.srs u.srs h.number slot ∧ StoreFigures s.srs u.srs ∧ u.srs.flows = s.srs.flows ∧
        (1 ≤ s.srs.freeCount → Rewritten s.srs u.srs slot h.number h.pos ∧ u = { s with srs := u.srs } ∧
          u.srs.queue = s.srs.queue ++ [.fullRecord s.srs.pointer h b]) ∧
        (s.srs.freeCount = 0 → ReservationIs s.srs u.srs slot none ∧ u.srs.queue = s.srs.queue ∧
          u.srs.pointer = s.srs.pointer ∧
          u = sealListed { pos := h.pos, number := h.number, slot := none, kind := b.kind } { s with srs := u.srs }))

/-- A collect job ends (R174): the marks that did not fail stand on every VALID uncollected record of its number
or below, and the event counts both. An erase job ends (R176): every slot of its sector is ERASED, or BAD with a
note that carries no number. Both record a store event with its mark. That a failed erase leaves the other parts of
each slot as they were, beside the note, is the model's choice (assumption 24). -/
def Obligations.CollectAndEraseJobsEnd : Prop :=
  ∀ s : State, s.srs.phase = .over → StoreCanonical s →
    (∀ (number : Nat) (failed : List Nat), s.srs.running = some (.collect number) →
      ∃ (u : State) (marked left : List Nat), JobEnded (.collectJobEnd failed) s u ∧ marked.Nodup ∧ left.Nodup ∧
        (∀ n, n ∈ marked ↔ Collectable s.srs number n ∧ n ∉ failed) ∧
        (∀ n, n ∈ left ↔ Collectable s.srs number n ∧ n ∈ failed) ∧
        u = storeEvent (.collectDone number marked.length left.length)
          { s with srs := { s.srs with contents := u.srs.contents, running := none } } ∧
        ∀ n, (n ∈ marked → u.srs.slot n = { s.srs.slot n with collected := true }) ∧
          (n ∉ marked → u.srs.slot n = s.srs.slot n)) ∧
    ∀ (sector : Nat) (ok : Bool), s.srs.running = some (.erase sector) →
      ∃ u, JobEnded (.eraseJobEnd ok) s u ∧
        u = storeEvent (if ok then .eraseDone sector else .eraseFailed sector)
          { s with srs := { s.srs with contents := u.srs.contents, running := none } } ∧
        ∀ n, (¬ InSector sector n → u.srs.slot n = s.srs.slot n) ∧
          (InSector sector n →
            u.srs.slot n = if ok then SlotContents.erased else { s.srs.slot n with note := some none })

/-- A job of an earlier reset that ends while the scan waits for it is not acted on: the store keeps what it
programmed, the queued jobs are discarded, the reservations dropped, and the scan begins (R177); what a failed job leaves on its slots beside the note is the model's choice
(assumption 24). The start-up scan ends (R177): the next seal number, the highest number
with its sector and the write pointer follow from what the slots hold, and SCAN_DONE is recorded with its mark.
Where several slots hold the highest number, the sector is that of the lowest of them (assumption 17). At any
other time the event changes nothing (assumption 21). -/
def Obligations.ScanWaitsThenSetsFigures : Prop :=
  (∀ (i : Instr) (j : Job) (r : Srs) (s : State), EndsJob i j s.srs r → s.srs.running = some j →
     s.srs.phase ≠ .over →
     exec i s = .next
       { s with srs := { s.srs with
         contents := r.contents, reserved := [], queue := [], running := none, phase := .scanning } }) ∧
  (∀ s : State, StoreCanonical s →
     (s.srs.phase ≠ .scanning → exec .scanDone s = .next s) ∧
     (s.srs.phase = .scanning → ∃ r,
       exec .scanDone s = .next (buildDue (storeEvent .scanDone { s with srs := r })) ∧
       r = { s.srs with phase := .over, pointer := r.pointer, nextSeal := r.nextSeal, highest := r.highest } ∧
       ((∀ n k, ¬ HoldsNumber s.srs n k) → r.pointer = 0 ∧ r.nextSeal = 1 ∧ r.highest = none) ∧
       ∀ n k, HoldsNumber s.srs n k → (∀ m j, HoldsNumber s.srs m j → j < k ∨ (j = k ∧ n ≤ m)) →
         r.nextSeal = k + 1 ∧ r.highest = some (k, n / 16) ∧
         (∀ i, i < 1024 → s.srs.slot ((n + i) % 1024) = SlotContents.erased →
           (∀ l, l < i → s.srs.slot ((n + l) % 1024) ≠ SlotContents.erased) → r.pointer = (n + i) % 1024) ∧
         ((∀ i, i < 1024 → s.srs.slot ((n + i) % 1024) ≠ SlotContents.erased) → r.pointer = (n + 1) % 1024)))

/-- The job at the head of the queue starts when none runs (R172). A body or full-record job that finds its slot
not RESERVED programs nothing there: it runs as a full-record job on the slot at the pointer, or ends with
RECORD_LOST when none is free, and the next job starts (R171). -/
def Obligations.JobStartTakesQueueHead : Prop :=
  ∀ s : State, ((s.srs.running ≠ none ∨ s.srs.phase ≠ .over) → exec .jobStart s = .next (buildDue s)) ∧
    (s.srs.running = none → s.srs.queue = [] → exec .jobStart s = .next (buildDue s)) ∧
    (s.srs.running = none → s.srs.phase = .over → ∀ j rest, s.srs.queue = j :: rest →
      ((∀ slot h b, RecordJob j slot h b → s.srs.slotState slot = .reserved) →
        exec .jobStart s = .next (buildDue { s with srs := { s.srs with queue := rest, running := some j } })) ∧
      ∀ slot h b, RecordJob j slot h b → s.srs.slotState slot ≠ .reserved →
        (s.srs.freeCount = 0 → exec .jobStart s = exec .jobStart
          (sealListed { pos := h.pos, number := h.number, slot := none, kind := b.kind }
            { s with srs := { s.srs with queue := rest } })) ∧
        (1 ≤ s.srs.freeCount → s.srs.pointer < 1024 → StoreCanonical s → ∃ r,
          exec .jobStart s = .next (buildDue { s with srs := r }) ∧
          r = { s.srs with
            reserved := r.reserved, pointer := (s.srs.pointer + 1) % 1024, queue := rest,
            running := some (.fullRecord s.srs.pointer h b) } ∧
          ReservationIs s.srs r s.srs.pointer (some { number := h.number, pos := h.pos })))

/-- STORE_STATUS and STORE_READ (R178, R179), with the fields at the places of 11.7. During the scan the figures
are absent, and STORE_READ is answered BUSY. The RAM view of a slot is reserved, or what its contents classify
as (assumption 8); fields a state does not carry are not judged here. That the queued jobs are counted without the
running one (assumption 23), that a presence byte is 1 (assumption 36), and that a VALID slot shows its header as
programmed (assumption 39), is the model's inference. STORE_COLLECT (R174) and STORE_ERASE (R175): the first refusal
that applies is the answer, and else the job is queued and the command answered OK. That a STORE_READ of a slot above
1023 and a STORE_COLLECT of 0 are answered BAD_ARG also where BUSY applies is the model's choice (assumption 18). -/
def Obligations.StoreCommands : Prop :=
  (∀ (tag : Byte) (s : State), Ready s →
     (∃ l, exec (.storeStatus tag) s = .next (answered tag (0x00 :: l) s) ∧ l.length = 38 ∧
       (s.srs.phase ≠ .over → field l 0 10 = [1, 0, 0, 0, 0, 0, 0, 0, 0, 0]) ∧
       (s.srs.phase = .over → field l 0 1 = [0] ∧ field l 1 2 = beBytes 2 s.srs.pointer ∧
         field l 3 2 = beBytes 2 s.srs.freeCount ∧ field l 5 5 = beBytes 5 s.srs.nextSeal ∧
         (s.srs.highest = none → field l 10 1 = [0]) ∧
         (∀ h, s.srs.highest = some h → field l 10 6 = 1 :: beBytes 4 h.1 ++ [byteOf h.2]) ∧
         field l 16 2 = beBytes 2 (s.srs.slotCount .erased) ∧ field l 18 2 = beBytes 2 (s.srs.slotCount .reserved) ∧
         field l 20 2 = beBytes 2 (s.srs.slotCount .valid) ∧ field l 22 2 = beBytes 2 (s.srs.slotCount .incomplete) ∧
         field l 24 2 = beBytes 2 (s.srs.slotCount .bad)) ∧
       field l 26 2 = [byteOf s.srs.queue.length, runningJobCode s.srs.running] ∧
       field l 28 10 = storeEventBytes s.srs.lastEvent) ∧
     ∀ slot : Word16,
       (1023 < slot.toNat → exec (.storeRead tag slot) s = .next (answered tag [0x02] s)) ∧
       (slot.toNat ≤ 1023 → s.srs.phase ≠ .over → exec (.storeRead tag slot) s = .next (answered tag [0x01] s)) ∧
       (slot.toNat ≤ 1023 → s.srs.phase = .over → ∃ l f, exec (.storeRead tag slot) s =
           .next (answered tag (0x00 :: l) s) ∧ l.length = 79 ∧
         field l 0 4 = beBytes 2 slot.toNat ++ [(s.srs.slotState slot.toNat).code, f] ∧
         (∀ v, s.srs.reservation slot.toNat = some v →
           f.getLsbD 0 = headerProgrammed (s.srs.slot slot.toNat) ∧ f.getLsbD 2 = true ∧
           field l 4 6 = beBytes 4 v.number ++ [BitVec.ofNat 8 (v.pos.val + 1), BitVec.ofNat 8 s.strap.toNat]) ∧
         (s.srs.slotState slot.toNat = .bad → f.getLsbD 2 = (s.srs.slot slot.toNat).classify.2.isSome ∧
           field l 4 4 = beBytes 4 ((s.srs.slot slot.toNat).classify.2.getD 0)) ∧
         (∀ h, s.srs.slotState slot.toNat = .incomplete → (s.srs.slot slot.toNat).header = .good h →
           field l 4 7 = beBytes 4 h.number ++ [BitVec.ofNat 8 (h.pos.val + 1), BitVec.ofNat 8 h.address.toNat, 2]) ∧
         ∀ h b, s.srs.slotState slot.toNat = .valid → (s.srs.slot slot.toNat).header = .good h →
           (s.srs.slot slot.toNat).body = .good b →
           f.getLsbD 0 = true ∧ f.getLsbD 1 = (s.srs.slot slot.toNat).collected ∧ f.getLsbD 2 = true ∧
           field l 4 6 = beBytes 4 h.number ++ [BitVec.ofNat 8 (h.pos.val + 1), BitVec.ofNat 8 h.address.toNat] ∧
           field l 10 1 = [if b.kind = .sealed then 0 else 1] ∧ field l 11 4 = beBytes 4 (b.runId.getD 0).toNat ∧
           field l 15 17 = serialBytes b.serial ∧ field l 32 1 = [byteOf b.trimRounds] ∧
           field l 33 2 = intBytes 2 b.gain ∧ field l 35 2 = intBytes 2 b.phase ∧
           field l 37 41 = verificationBytes b.verification ∧
           field l 78 1 = [match b.kind with
             | .sealed => 0
             | .void .nack => 1
             | .void .noReply => 2
             | .void .aborted => 3])) ∧
  (∀ (tag : Byte) (s : State), Ready s →
     (∀ (number : Word32),
       (∀ st, FirstHolds (collectConditions s number.toNat) (some st) →
         exec (.storeCollect tag number) s = .next (answered tag [st.code] s)) ∧
       (FirstHolds (collectConditions s number.toNat) none → (s.srs.running ≠ none ∨ s.srs.queue = []) →
         exec (.storeCollect tag number) s = .next (answered tag [0x00] (queued (.collect number.toNat) s)))) ∧
     ∀ (sector : Byte),
       (∀ st, FirstHolds (eraseConditions s sector.toNat) (some st) →
         exec (.storeErase tag sector) s = .next (answered tag [st.code] s)) ∧
       (FirstHolds (eraseConditions s sector.toNat) none → (s.srs.running ≠ none ∨ s.srs.queue = []) →
         exec (.storeErase tag sector) s = .next (answered tag [0x00] (queued (.erase sector.toNat) s))))

/-! ### The bench link -/

/-- A valid cell received at UP (R181, R182, R184, R186): a null cell and an upward one go no further, one under
the module's own address is taken as its command, one for all modules is forwarded and taken where its kind is a
broadcast, and any other is forwarded. A payload that does not fit the kind is answered BAD_ARG, and so is a choice byte
outside its codes, before anything else of the command is judged (the model's inference, assumption 27). A valid cell
received at DOWN (R181, R182): a null cell is consumed, and any other enters the forward FIFO, or is dropped and
counted when it holds four. -/
def Obligations.ValidCellsAreHandled : Prop :=
  (∀ (c : Cell) (s : State), CellValid c → s.bli.rxUp = .hunt →
     (c.dest = 0 → exec (.upCellReceived c.bytes) s = .next s) ∧
     (OwnCell s c →
       (Upward c → exec (.upCellReceived c.bytes) s = .next s) ∧
       (¬ Upward c →
         (∀ i, decodeCommand c.kind c.tag c.payload = some i → exec (.upCellReceived c.bytes) s = exec i s) ∧
         (decodeCommand c.kind c.tag c.payload = none → Ready s → (c.kind = 0x40 → PortReady s) →
           exec (.upCellReceived c.bytes) s = .next (answered c.tag [0x02] s)))) ∧
     (c.dest = 15 →
       (∀ i, decodeBroadcast c.kind c.payload = some i →
         exec (.upCellReceived c.bytes) s = exec i (forwarded c s)) ∧
       (decodeBroadcast c.kind c.payload = none → exec (.upCellReceived c.bytes) s = .next (forwarded c s))) ∧
     (c.dest ≠ 0 → c.dest ≠ 15 → ¬ OwnCell s c → exec (.upCellReceived c.bytes) s = .next (forwarded c s))) ∧
  (∀ (c : Cell) (s : State), CellValid c → s.bli.rxDown = .hunt →
     (c.dest = 0 → ¬ Upward c → exec (.downCellReceived c.bytes) s = .next s) ∧
     ((c.dest ≠ 0 ∨ Upward c) →
       (s.bli.forward.length < 4 → exec (.downCellReceived c.bytes) s =
         .next { s with bli := { s.bli with forward := s.bli.forward ++ [c] } }) ∧
       (4 ≤ s.bli.forward.length → exec (.downCellReceived c.bytes) s =
         .next { s with bli := { s.bli with forwardDrops := tallied s.bli.forwardDrops } })))

/-- What is no valid cell (R181): in HUNT a byte other than the sync byte and a fill character are discarded; a
cell with a wrong CRC, a header that no cell has, or a fill character before it is complete is discarded and
counted, and the receiver hunts again. That a header is judged as soon as it is in is the model's choice
(assumption 13). -/
def Obligations.InvalidCellsAreCounted : Prop :=
  ∀ s : State,
    (s.bli.rxUp = .hunt →
      (∀ b : Byte, b ≠ 0xC5 → exec (.upCellReceived [b]) s = .next s) ∧
      exec (.fillBeforeCellComplete .up) s = .next s ∧
      (∀ (c : Cell) (crc : List Byte), CellValid c → crc.length = 2 → crc ≠ c.crc →
        exec (.upCellReceived (0xC5 :: (c.covered ++ crc))) s =
          .next { s with bli := { s.bli with upErrors := tallied s.bli.upErrors } }) ∧
      ∀ dest source kind tag length : Byte, (15 < dest.toNat ∨ 0xE1 < kind.toNat ∨ 250 < length.toNat) →
        exec (.upCellReceived [0xC5, dest, source, kind, tag, length]) s =
          .next { s with bli := { s.bli with upErrors := tallied s.bli.upErrors } }) ∧
    (∀ l, s.bli.rxUp = .cell l → exec (.fillBeforeCellComplete .up) s =
      .next { s with bli := { s.bli with rxUp := .hunt, upErrors := tallied s.bli.upErrors } }) ∧
    (s.bli.rxDown = .hunt →
      (∀ b : Byte, b ≠ 0xC5 → exec (.downCellReceived [b]) s = .next s) ∧
      exec (.fillBeforeCellComplete .down) s = .next s ∧
      (∀ (c : Cell) (crc : List Byte), CellValid c → crc.length = 2 → crc ≠ c.crc →
        exec (.downCellReceived (0xC5 :: (c.covered ++ crc))) s =
          .next { s with bli := { s.bli with downErrors := tallied s.bli.downErrors } }) ∧
      ∀ dest source kind tag length : Byte, (15 < dest.toNat ∨ 0xE1 < kind.toNat ∨ 250 < length.toNat) →
        exec (.downCellReceived [0xC5, dest, source, kind, tag, length]) s =
          .next { s with bli := { s.bli with downErrors := tallied s.bli.downErrors } }) ∧
    ∀ l, s.bli.rxDown = .cell l → exec (.fillBeforeCellComplete .down) s =
      .next { s with bli := { s.bli with rxDown := .hunt, downErrors := tallied s.bli.downErrors } }

/-- The UP transmitter's choice at a cell boundary (R183): the oldest cell of the forward FIFO, else of the answer
queue, else of the report queue, else fill. The DOWN transmitter sends the forwarded cells in their order, and no cell
of its own (R182). A freed place of the report queue takes a report that is due (R190). The end of a FULL reset's
answer is no choice of this kind, and is stated with that reset. -/
def Obligations.TransmittersChooseNextCell : Prop :=
  ∀ s : State,
    ((∀ x, s.bli.txUp = some x → x.out.actsFull = false) →
      (∀ c rest, s.bli.forward = c :: rest → exec .upCellBoundary s = .next (buildDue { s with bli := { s.bli with
        txUp := some (sentCell { cell := c, actsFull := false }), forward := rest } })) ∧
      (s.bli.forward = [] →
        (∀ a rest, s.bli.answers = a :: rest → exec .upCellBoundary s = .next (buildDue { s with bli := { s.bli with
          txUp := some (sentCell a), answers := rest } })) ∧
        (s.bli.answers = [] →
          (∀ c rest, s.bli.reports = c :: rest → exec .upCellBoundary s = .next (buildDue { s with bli := { s.bli with
            txUp := some (sentCell { cell := c, actsFull := false }), reports := rest } })) ∧
          (s.bli.reports = [] → exec .upCellBoundary s =
            .next (buildDue { s with bli := { s.bli with txUp := none } }))))) ∧
    (∀ c rest, s.bli.downBuffer = c :: rest → exec .downForwardSend s = .next { s with bli := { s.bli with
      txDown := some (sentCell { cell := c, actsFull := false }), downBuffer := rest } }) ∧
    (s.bli.downBuffer = [] → exec .downForwardSend s = .next { s with bli := { s.bli with txDown := none } })

/-- One report is built where the queue has room and something is there to report (R189, R190): the module marks
first, in their order, and then the first position with something to report, its verdict, its oldest SEAL_DONE
entry, its identification, its gate result. The payloads are those of 11.7, a presence byte 1 (assumption 36). An event that sets a mark, lists an entry
or frees a place of the queue builds such reports one after another until none is left to build or the queue is
full; that they come at the end of the event, and not within it, is the model's choice (assumption 19), and so are the reports of a module strapped 0 or 15 and their source
(assumption 40). -/
def Obligations.ReportBuiltInOrder : Prop :=
  (∀ s : State, (Reported s → buildDue s = s) ∧ Reported (buildDue s) ∧
    (¬ Reported s → ∃ t, exec .reportBuild s = .next t ∧ buildDue s = buildDue t)) ∧
  ∀ s : State,
    ((16 ≤ s.bli.reports.length ∨ (NoModuleMark s ∧ ∀ p, NoReport s p)) → exec .reportBuild s = .next s) ∧
    (s.bli.reports.length < 16 →
      (s.bli.markRefLost = true → exec .reportBuild s = .next
        (reported ([1, s.psc.stepState.code] ++ stepRefBytes (namedStep s))
          { s with bli := { s.bli with markRefLost := false } })) ∧
      (s.bli.markRefLost = false → s.bli.markStepState = true → exec .reportBuild s = .next
        (reported ([2, s.psc.stepState.code] ++ stepRefBytes (namedStep s) ++ [stepEventCode s.psc.lastEvent] ++
            stepRefBytes s.psc.queued ++ [BitVec.ofNat 8 s.psc.running.length])
          { s with bli := { s.bli with markStepState := false } })) ∧
      (s.bli.markRefLost = false → s.bli.markStepState = false → s.bli.markStore = true → s.srs.phase = .over →
        exec .reportBuild s = .next
          (reported (3 :: storeEventBytes s.srs.lastEvent ++ beBytes 2 s.srs.freeCount ++ beBytes 5 s.srs.nextSeal)
            { s with bli := { s.bli with markStore := false } })) ∧
      (NoModuleMark s → ∀ p : Pos, (∀ q, q < p → NoReport s q) →
        (∀ n, (s.marks p).verdict = some n → exec .reportBuild s = .next
          (reported ([4, BitVec.ofNat 8 (p.val + 1), BitVec.ofNat 8 n.val, (s.pos p).state.code] ++
              beBytes 4 ((s.pos p).runId.getD 0).toNat ++ entryBytes (s.pos p).results[n.val])
            (s.setMarks p { s.marks p with verdict := none }))) ∧
        ((s.marks p).verdict = none →
          (∀ front e rest, s.bli.sealDone = front ++ e :: rest → e.pos = p → (∀ x ∈ front, x.pos ≠ p) →
            exec .reportBuild s = .next
              (reported ([5, BitVec.ofNat 8 (p.val + 1)] ++ beBytes 4 e.number ++ [boolByte e.slot.isSome] ++
                  beBytes 2 (e.slot.getD 0) ++ [if e.kind = .sealed then 0 else 1, boolByte e.slot.isNone])
                { s with bli := { s.bli with sealDone := front ++ rest } })) ∧
          ((∀ e ∈ s.bli.sealDone, e.pos ≠ p) →
            ((s.marks p).identify = true → exec .reportBuild s = .next
              (reported ([6, BitVec.ofNat 8 (p.val + 1), identifyCode (s.identified p)] ++
                  serialBytes (s.pos p).serial)
                (s.setMarks p { s.marks p with identify := false }))) ∧
            ((s.marks p).identify = false → (s.marks p).gate = true → exec .reportBuild s = .next
              (reported ([7, BitVec.ofNat 8 (p.val + 1), boolByte (s.pos p).latestGate.isSome] ++
                  gateResultBytes (s.pos p).latestGate)
                (s.setMarks p { s.marks p with gate := false })))))))

/-! ### The whole machine -/

/-- Every addressed command comes back whole from the cell that carries it (11.6, 11.7): decoding what is
encoded gives the command, with every operand at every value a cell admits. -/
def Obligations.CommandsSurviveTheirCells : Prop :=
  ∀ (i : Instr) (kind tag : Byte) (payload : List Byte), i.wf = true →
    encodeCommand i = some (kind, tag, payload) →
    payload.length ≤ 250 ∧ decodeCommand kind tag payload = some i

/-- Every step keeps the bounds and relations of the whole machine: the store and its reservations in canonical
form, the queues within their places and the tallies within 65,535, an active step exactly in the active states,
a trim limit of 1 to 7, pending words within their widths, the counts at their limits, and every line's filtered value
as its samples give it (R2, R3, R6, R9, R41, R122, R125, R181, R182, R184, R189). -/
def Obligations.EveryStepKeepsInvariant : Prop :=
  ∀ s t : State, Invariant s → step s = .next t → Invariant t

/-- Every step leaves no IDLE channel with a request it could start (R142), and no report to build while the report
queue has room (R190). -/
def Obligations.EveryStepLeavesChannelsServed : Prop :=
  (∀ s t : State, Served s → step s = .next t → Served t) ∧
  ∀ s t : State, Settled s → Reported s → step s = .next t → Reported t

/-- Every step leaves no job waiting while none runs outside the scan, an operation to wait for during the wait, nothing
running, queued or reserved during the scan, no live flow in either, the write pointer on a slot, and no position twice
in the running set (R41, R166, R172, R177). -/
def Obligations.EveryStepKeepsSettled : Prop :=
  ∀ s t : State, Settled s → step s = .next t → Settled t

end
end

