-- ==== Sys2Proof/Laws/Commands.lean ====
section
/-! SUPPORT. The laws of commands that come in cells, of due acts, and of a channel that has nothing to start. -/

namespace Sys2Proof.Machine

open Sys2Proof.Safety

/-- What a cell's command does: nothing, or what its meaning does, and that is never the receiving of a cell. -/
theorem runCommand_cases (i : Instr) (s : State) :
    runCommand i s = s ∨ (runCommand i s = nextOr s (exec i s) ∧ ∀ l, i ≠ .upCellReceived l) := by
  cases i <;> first
    | (left; simp only [runCommand]; done)
    | (right; exact ⟨by simp only [runCommand, exec], fun l h => by cases h⟩)

/-- What a due act does: nothing, or what its meaning does, and that is never the receiving of a cell. -/
theorem runAct_cases (i : Instr) (s : State) :
    runAct i s = s ∨ (runAct i s = nextOr s (exec i s) ∧ ∀ l, i ≠ .upCellReceived l) := by
  cases i <;> first
    | (left; simp only [runAct]; done)
    | (right; exact ⟨by simp only [runAct, exec], fun l h => by cases h⟩)

theorem isIdle_iff (c : Channel) : c.isIdle = true ↔ c.state = .idle := by
  unfold Channel.isIdle; split <;> simp_all

/-- A channel that has nothing to start starts nothing. -/
theorem tryStart_of_nothing {s : State} {p : Pos}
    (h : (s.chan p).state = .idle → (s.chan p).internal = none ∧ ∀ r, (s.chan p).relay = .waiting r → r.sendable = false) :
    tryStart p s = s := by
  unfold tryStart
  split
  · rename_i hi
    obtain ⟨h1, h2⟩ := h ((isIdle_iff _).1 hi)
    rw [h1]; simp only
    split
    · rename_i r hr; simp [h2 r hr]
    · rfl
  · rfl

theorem emptyRequest_of_no_internal {s : State}
    (h : ∀ p, (s.chan p).state = .idle → (s.chan p).internal = none) (p : Pos) : emptyRequest s p = none := by
  unfold emptyRequest
  split
  · rename_i hi; rw [h p ((isIdle_iff _).1 hi)]; rfl
  · rfl

/-- With no request waiting at an IDLE channel there is none to end. -/
theorem endOneEmpty_of_no_internal {s : State}
    (h : ∀ p, (s.chan p).state = .idle → (s.chan p).internal = none) : endOneEmpty s = s := by
  unfold endOneEmpty
  have e : nextEmpty s = none := by
    unfold nextEmpty
    rw [List.find?_eq_none]
    intro p _
    simp [emptyRequest_of_no_internal h p]
  rw [e]

theorem quiesce_of_no_internal {s : State}
    (h : ∀ p, (s.chan p).state = .idle → (s.chan p).internal = none) : quiesce s = s := by
  unfold quiesce
  generalize List.range 64 = l
  induction l with
  | nil => rfl
  | cons a l ih => simp only [List.foldl_cons, endOneEmpty_of_no_internal h]; exact ih

/-- A served state has no template request at an IDLE channel. -/
theorem no_internal_of_served {s : State} (h : Served s) :
    ∀ p, (s.chan p).state = .idle → (s.chan p).internal = none := fun p hp => (h p hp).1

/-- States with the same channels are served alike. -/
theorem served_congr {s t : State} (h : Served s) (e : ∀ p, t.chan p = s.chan p) : Served t := by
  intro p; rw [e p]; exact h p

end Sys2Proof.Machine
end

