-- ==== Sys2Proof/Laws/State.lean ====
section
/-! SUPPORT. The lemmas of the accessors: what each replacement of a part of the state leaves of every other
part, and what is read back after it. -/

namespace Sys2Proof.Machine

/-! ### One value for each position -/

@[simp] theorem atPos_putPos_self {α : Type} (v : PerPos α) (p : Pos) (x : α) : atPos (putPos v p x) p = x := by
  simp [atPos, putPos]

theorem atPos_putPos_ne {α : Type} (v : PerPos α) {p q : Pos} (h : q ≠ p) (x : α) :
    atPos (putPos v p x) q = atPos v q := by
  have h' : p.val ≠ q.val := fun e => h (Fin.ext e.symm)
  simp [atPos, putPos, Vector.getElem_set_ne, h']

theorem atPos_putPos {α : Type} (v : PerPos α) (p q : Pos) (x : α) :
    atPos (putPos v p x) q = if q = p then x else atPos v q := by
  by_cases h : q = p
  · simp [h]
  · simp [h, atPos_putPos_ne]

@[simp] theorem putPos_atPos {α : Type} (v : PerPos α) (p : Pos) : putPos v p (atPos v p) = v := by
  simp [atPos, putPos]

@[simp] theorem putPos_putPos {α : Type} (v : PerPos α) (p : Pos) (x y : α) :
    putPos (putPos v p x) p y = putPos v p y := by
  ext i h
  by_cases e : p.val = i <;> simp [putPos, e]

@[simp] theorem atPos_map {α β : Type} (v : PerPos α) (f : α → β) (p : Pos) :
    atPos (v.map f) p = f (atPos v p) := by
  simp [atPos]

@[simp] theorem atPos_replicate {α : Type} (x : α) (p : Pos) : atPos (Vector.replicate 12 x) p = x := by
  simp [atPos]

@[simp] theorem mem_allPos (p : Pos) : p ∈ allPos := by revert p; decide

/-! ### setPos -/

@[simp] theorem State.setPos_strap (s : State) (p : Pos) (x : PositionRecord) : (s.setPos p x).strap = s.strap := rfl
@[simp] theorem State.setPos_piu (s : State) (p : Pos) (x : PositionRecord) : (s.setPos p x).piu = s.piu := rfl
@[simp] theorem State.setPos_psc (s : State) (p : Pos) (x : PositionRecord) : (s.setPos p x).psc = s.psc := rfl
@[simp] theorem State.setPos_gates (s : State) (p : Pos) (x : PositionRecord) : (s.setPos p x).gates = s.gates := rfl
@[simp] theorem State.setPos_pch (s : State) (p : Pos) (x : PositionRecord) : (s.setPos p x).pch = s.pch := rfl
@[simp] theorem State.setPos_rules (s : State) (p : Pos) (x : PositionRecord) : (s.setPos p x).rules = s.rules := rfl
@[simp] theorem State.setPos_srs (s : State) (p : Pos) (x : PositionRecord) : (s.setPos p x).srs = s.srs := rfl
@[simp] theorem State.setPos_bli (s : State) (p : Pos) (x : PositionRecord) : (s.setPos p x).bli = s.bli := rfl
@[simp] theorem State.setPos_pending (s : State) (p : Pos) (x : PositionRecord) : (s.setPos p x).pending = s.pending := rfl
@[simp] theorem State.setPos_pt_trimLimit (s : State) (p : Pos) (x : PositionRecord) :
    (s.setPos p x).pt.trimLimit = s.pt.trimLimit := rfl
@[simp] theorem State.setPos_pt_gateReports (s : State) (p : Pos) (x : PositionRecord) :
    (s.setPos p x).pt.gateReports = s.pt.gateReports := rfl
@[simp] theorem State.setPos_pos_self (s : State) (p : Pos) (x : PositionRecord) : (s.setPos p x).pos p = x := by
  simp [State.setPos, State.pos]
theorem State.setPos_pos_ne (s : State) {p q : Pos} (h : q ≠ p) (x : PositionRecord) :
    (s.setPos p x).pos q = s.pos q := by
  simp [State.setPos, State.pos, atPos_putPos_ne, h]
theorem State.setPos_pos (s : State) (p : Pos) (x : PositionRecord) (q : Pos) :
    (s.setPos p x).pos q = if q = p then x else s.pos q := by
  simp [State.setPos, State.pos, atPos_putPos]
@[simp] theorem State.setPos_read (s : State) (p : Pos) : s.setPos p (s.pos p) = s := by
  simp [State.setPos, State.pos]
@[simp] theorem State.setPos_setPos (s : State) (p : Pos) (x : PositionRecord) (y) : (s.setPos p x).setPos p y = s.setPos p y := by
  simp [State.setPos]
@[simp] theorem State.setPos_line (s : State) (p : Pos) (x : PositionRecord) (q : Pos) : (s.setPos p x).line q = s.line q := rfl
@[simp] theorem State.setPos_gate (s : State) (p : Pos) (x : PositionRecord) (q : Pos) : (s.setPos p x).gate q = s.gate q := rfl
@[simp] theorem State.setPos_window (s : State) (p : Pos) (x : PositionRecord) (q : Pos) : (s.setPos p x).window q = s.window q := rfl
@[simp] theorem State.setPos_reg (s : State) (p : Pos) (x : PositionRecord) (q : Pos) : (s.setPos p x).reg q = s.reg q := rfl
@[simp] theorem State.setPos_chan (s : State) (p : Pos) (x : PositionRecord) (q : Pos) : (s.setPos p x).chan q = s.chan q := rfl
@[simp] theorem State.setPos_identified (s : State) (p : Pos) (x : PositionRecord) (q : Pos) : (s.setPos p x).identified q = s.identified q := rfl
@[simp] theorem State.setPos_flow (s : State) (p : Pos) (x : PositionRecord) (q : Pos) : (s.setPos p x).flow q = s.flow q := rfl
@[simp] theorem State.setPos_marks (s : State) (p : Pos) (x : PositionRecord) (q : Pos) : (s.setPos p x).marks q = s.marks q := rfl

/-! ### setLine -/

@[simp] theorem State.setLine_strap (s : State) (p : Pos) (x : Line) : (s.setLine p x).strap = s.strap := rfl
@[simp] theorem State.setLine_pt (s : State) (p : Pos) (x : Line) : (s.setLine p x).pt = s.pt := rfl
@[simp] theorem State.setLine_psc (s : State) (p : Pos) (x : Line) : (s.setLine p x).psc = s.psc := rfl
@[simp] theorem State.setLine_gates (s : State) (p : Pos) (x : Line) : (s.setLine p x).gates = s.gates := rfl
@[simp] theorem State.setLine_pch (s : State) (p : Pos) (x : Line) : (s.setLine p x).pch = s.pch := rfl
@[simp] theorem State.setLine_rules (s : State) (p : Pos) (x : Line) : (s.setLine p x).rules = s.rules := rfl
@[simp] theorem State.setLine_srs (s : State) (p : Pos) (x : Line) : (s.setLine p x).srs = s.srs := rfl
@[simp] theorem State.setLine_bli (s : State) (p : Pos) (x : Line) : (s.setLine p x).bli = s.bli := rfl
@[simp] theorem State.setLine_pending (s : State) (p : Pos) (x : Line) : (s.setLine p x).pending = s.pending := rfl
@[simp] theorem State.setLine_piu_micros (s : State) (p : Pos) (x : Line) :
    (s.setLine p x).piu.micros = s.piu.micros := rfl
@[simp] theorem State.setLine_piu_millis (s : State) (p : Pos) (x : Line) :
    (s.setLine p x).piu.millis = s.piu.millis := rfl
@[simp] theorem State.setLine_piu_sync (s : State) (p : Pos) (x : Line) :
    (s.setLine p x).piu.sync = s.piu.sync := rfl
@[simp] theorem State.setLine_piu_source (s : State) (p : Pos) (x : Line) :
    (s.setLine p x).piu.source = s.piu.source := rfl
@[simp] theorem State.setLine_piu_monitor (s : State) (p : Pos) (x : Line) :
    (s.setLine p x).piu.monitor = s.piu.monitor := rfl
@[simp] theorem State.setLine_piu_timer (s : State) (p : Pos) (x : Line) :
    (s.setLine p x).piu.timer = s.piu.timer := rfl
@[simp] theorem State.setLine_pos (s : State) (p : Pos) (x : Line) (q : Pos) : (s.setLine p x).pos q = s.pos q := rfl
@[simp] theorem State.setLine_line_self (s : State) (p : Pos) (x : Line) : (s.setLine p x).line p = x := by
  simp [State.setLine, State.line]
theorem State.setLine_line_ne (s : State) {p q : Pos} (h : q ≠ p) (x : Line) :
    (s.setLine p x).line q = s.line q := by
  simp [State.setLine, State.line, atPos_putPos_ne, h]
theorem State.setLine_line (s : State) (p : Pos) (x : Line) (q : Pos) :
    (s.setLine p x).line q = if q = p then x else s.line q := by
  simp [State.setLine, State.line, atPos_putPos]
@[simp] theorem State.setLine_read (s : State) (p : Pos) : s.setLine p (s.line p) = s := by
  simp [State.setLine, State.line]
@[simp] theorem State.setLine_setLine (s : State) (p : Pos) (x : Line) (y) : (s.setLine p x).setLine p y = s.setLine p y := by
  simp [State.setLine]
@[simp] theorem State.setLine_gate (s : State) (p : Pos) (x : Line) (q : Pos) : (s.setLine p x).gate q = s.gate q := rfl
@[simp] theorem State.setLine_window (s : State) (p : Pos) (x : Line) (q : Pos) : (s.setLine p x).window q = s.window q := rfl
@[simp] theorem State.setLine_reg (s : State) (p : Pos) (x : Line) (q : Pos) : (s.setLine p x).reg q = s.reg q := rfl
@[simp] theorem State.setLine_chan (s : State) (p : Pos) (x : Line) (q : Pos) : (s.setLine p x).chan q = s.chan q := rfl
@[simp] theorem State.setLine_identified (s : State) (p : Pos) (x : Line) (q : Pos) : (s.setLine p x).identified q = s.identified q := rfl
@[simp] theorem State.setLine_flow (s : State) (p : Pos) (x : Line) (q : Pos) : (s.setLine p x).flow q = s.flow q := rfl
@[simp] theorem State.setLine_marks (s : State) (p : Pos) (x : Line) (q : Pos) : (s.setLine p x).marks q = s.marks q := rfl

/-! ### setGate -/

@[simp] theorem State.setGate_strap (s : State) (p : Pos) (x : Option GateContext) : (s.setGate p x).strap = s.strap := rfl
@[simp] theorem State.setGate_piu (s : State) (p : Pos) (x : Option GateContext) : (s.setGate p x).piu = s.piu := rfl
@[simp] theorem State.setGate_pt (s : State) (p : Pos) (x : Option GateContext) : (s.setGate p x).pt = s.pt := rfl
@[simp] theorem State.setGate_psc (s : State) (p : Pos) (x : Option GateContext) : (s.setGate p x).psc = s.psc := rfl
@[simp] theorem State.setGate_pch (s : State) (p : Pos) (x : Option GateContext) : (s.setGate p x).pch = s.pch := rfl
@[simp] theorem State.setGate_rules (s : State) (p : Pos) (x : Option GateContext) : (s.setGate p x).rules = s.rules := rfl
@[simp] theorem State.setGate_srs (s : State) (p : Pos) (x : Option GateContext) : (s.setGate p x).srs = s.srs := rfl
@[simp] theorem State.setGate_bli (s : State) (p : Pos) (x : Option GateContext) : (s.setGate p x).bli = s.bli := rfl
@[simp] theorem State.setGate_pending (s : State) (p : Pos) (x : Option GateContext) : (s.setGate p x).pending = s.pending := rfl
@[simp] theorem State.setGate_pos (s : State) (p : Pos) (x : Option GateContext) (q : Pos) : (s.setGate p x).pos q = s.pos q := rfl
@[simp] theorem State.setGate_line (s : State) (p : Pos) (x : Option GateContext) (q : Pos) : (s.setGate p x).line q = s.line q := rfl
@[simp] theorem State.setGate_gate_self (s : State) (p : Pos) (x : Option GateContext) : (s.setGate p x).gate p = x := by
  simp [State.setGate, State.gate]
theorem State.setGate_gate_ne (s : State) {p q : Pos} (h : q ≠ p) (x : Option GateContext) :
    (s.setGate p x).gate q = s.gate q := by
  simp [State.setGate, State.gate, atPos_putPos_ne, h]
theorem State.setGate_gate (s : State) (p : Pos) (x : Option GateContext) (q : Pos) :
    (s.setGate p x).gate q = if q = p then x else s.gate q := by
  simp [State.setGate, State.gate, atPos_putPos]
@[simp] theorem State.setGate_read (s : State) (p : Pos) : s.setGate p (s.gate p) = s := by
  simp [State.setGate, State.gate]
@[simp] theorem State.setGate_setGate (s : State) (p : Pos) (x : Option GateContext) (y) : (s.setGate p x).setGate p y = s.setGate p y := by
  simp [State.setGate]
@[simp] theorem State.setGate_window (s : State) (p : Pos) (x : Option GateContext) (q : Pos) : (s.setGate p x).window q = s.window q := rfl
@[simp] theorem State.setGate_reg (s : State) (p : Pos) (x : Option GateContext) (q : Pos) : (s.setGate p x).reg q = s.reg q := rfl
@[simp] theorem State.setGate_chan (s : State) (p : Pos) (x : Option GateContext) (q : Pos) : (s.setGate p x).chan q = s.chan q := rfl
@[simp] theorem State.setGate_identified (s : State) (p : Pos) (x : Option GateContext) (q : Pos) : (s.setGate p x).identified q = s.identified q := rfl
@[simp] theorem State.setGate_flow (s : State) (p : Pos) (x : Option GateContext) (q : Pos) : (s.setGate p x).flow q = s.flow q := rfl
@[simp] theorem State.setGate_marks (s : State) (p : Pos) (x : Option GateContext) (q : Pos) : (s.setGate p x).marks q = s.marks q := rfl

/-! ### setWindow -/

@[simp] theorem State.setWindow_strap (s : State) (p : Pos) (x : Option WindowRecord) : (s.setWindow p x).strap = s.strap := rfl
@[simp] theorem State.setWindow_piu (s : State) (p : Pos) (x : Option WindowRecord) : (s.setWindow p x).piu = s.piu := rfl
@[simp] theorem State.setWindow_pt (s : State) (p : Pos) (x : Option WindowRecord) : (s.setWindow p x).pt = s.pt := rfl
@[simp] theorem State.setWindow_gates (s : State) (p : Pos) (x : Option WindowRecord) : (s.setWindow p x).gates = s.gates := rfl
@[simp] theorem State.setWindow_pch (s : State) (p : Pos) (x : Option WindowRecord) : (s.setWindow p x).pch = s.pch := rfl
@[simp] theorem State.setWindow_rules (s : State) (p : Pos) (x : Option WindowRecord) : (s.setWindow p x).rules = s.rules := rfl
@[simp] theorem State.setWindow_srs (s : State) (p : Pos) (x : Option WindowRecord) : (s.setWindow p x).srs = s.srs := rfl
@[simp] theorem State.setWindow_bli (s : State) (p : Pos) (x : Option WindowRecord) : (s.setWindow p x).bli = s.bli := rfl
@[simp] theorem State.setWindow_pending (s : State) (p : Pos) (x : Option WindowRecord) : (s.setWindow p x).pending = s.pending := rfl
@[simp] theorem State.setWindow_psc_plan (s : State) (p : Pos) (x : Option WindowRecord) :
    (s.setWindow p x).psc.plan = s.psc.plan := rfl
@[simp] theorem State.setWindow_psc_stepState (s : State) (p : Pos) (x : Option WindowRecord) :
    (s.setWindow p x).psc.stepState = s.psc.stepState := rfl
@[simp] theorem State.setWindow_psc_active (s : State) (p : Pos) (x : Option WindowRecord) :
    (s.setWindow p x).psc.active = s.psc.active := rfl
@[simp] theorem State.setWindow_psc_last (s : State) (p : Pos) (x : Option WindowRecord) :
    (s.setWindow p x).psc.last = s.psc.last := rfl
@[simp] theorem State.setWindow_psc_queued (s : State) (p : Pos) (x : Option WindowRecord) :
    (s.setWindow p x).psc.queued = s.psc.queued := rfl
@[simp] theorem State.setWindow_psc_running (s : State) (p : Pos) (x : Option WindowRecord) :
    (s.setWindow p x).psc.running = s.psc.running := rfl
@[simp] theorem State.setWindow_psc_timerUse (s : State) (p : Pos) (x : Option WindowRecord) :
    (s.setWindow p x).psc.timerUse = s.psc.timerUse := rfl
@[simp] theorem State.setWindow_psc_useNo (s : State) (p : Pos) (x : Option WindowRecord) :
    (s.setWindow p x).psc.useNo = s.psc.useNo := rfl
@[simp] theorem State.setWindow_psc_raised (s : State) (p : Pos) (x : Option WindowRecord) :
    (s.setWindow p x).psc.raised = s.psc.raised := rfl
@[simp] theorem State.setWindow_psc_lastEvent (s : State) (p : Pos) (x : Option WindowRecord) :
    (s.setWindow p x).psc.lastEvent = s.psc.lastEvent := rfl
@[simp] theorem State.setWindow_psc_windowStart (s : State) (p : Pos) (x : Option WindowRecord) :
    (s.setWindow p x).psc.windowStart = s.psc.windowStart := rfl
@[simp] theorem State.setWindow_psc_regs (s : State) (p : Pos) (x : Option WindowRecord) :
    (s.setWindow p x).psc.regs = s.psc.regs := rfl
@[simp] theorem State.setWindow_pos (s : State) (p : Pos) (x : Option WindowRecord) (q : Pos) : (s.setWindow p x).pos q = s.pos q := rfl
@[simp] theorem State.setWindow_line (s : State) (p : Pos) (x : Option WindowRecord) (q : Pos) : (s.setWindow p x).line q = s.line q := rfl
@[simp] theorem State.setWindow_gate (s : State) (p : Pos) (x : Option WindowRecord) (q : Pos) : (s.setWindow p x).gate q = s.gate q := rfl
@[simp] theorem State.setWindow_window_self (s : State) (p : Pos) (x : Option WindowRecord) : (s.setWindow p x).window p = x := by
  simp [State.setWindow, State.window]
theorem State.setWindow_window_ne (s : State) {p q : Pos} (h : q ≠ p) (x : Option WindowRecord) :
    (s.setWindow p x).window q = s.window q := by
  simp [State.setWindow, State.window, atPos_putPos_ne, h]
theorem State.setWindow_window (s : State) (p : Pos) (x : Option WindowRecord) (q : Pos) :
    (s.setWindow p x).window q = if q = p then x else s.window q := by
  simp [State.setWindow, State.window, atPos_putPos]
@[simp] theorem State.setWindow_read (s : State) (p : Pos) : s.setWindow p (s.window p) = s := by
  simp [State.setWindow, State.window]
@[simp] theorem State.setWindow_setWindow (s : State) (p : Pos) (x : Option WindowRecord) (y) : (s.setWindow p x).setWindow p y = s.setWindow p y := by
  simp [State.setWindow]
@[simp] theorem State.setWindow_reg (s : State) (p : Pos) (x : Option WindowRecord) (q : Pos) : (s.setWindow p x).reg q = s.reg q := rfl
@[simp] theorem State.setWindow_chan (s : State) (p : Pos) (x : Option WindowRecord) (q : Pos) : (s.setWindow p x).chan q = s.chan q := rfl
@[simp] theorem State.setWindow_identified (s : State) (p : Pos) (x : Option WindowRecord) (q : Pos) : (s.setWindow p x).identified q = s.identified q := rfl
@[simp] theorem State.setWindow_flow (s : State) (p : Pos) (x : Option WindowRecord) (q : Pos) : (s.setWindow p x).flow q = s.flow q := rfl
@[simp] theorem State.setWindow_marks (s : State) (p : Pos) (x : Option WindowRecord) (q : Pos) : (s.setWindow p x).marks q = s.marks q := rfl

/-! ### setReg -/

@[simp] theorem State.setReg_strap (s : State) (p : Pos) (x : Option RegContext) : (s.setReg p x).strap = s.strap := rfl
@[simp] theorem State.setReg_piu (s : State) (p : Pos) (x : Option RegContext) : (s.setReg p x).piu = s.piu := rfl
@[simp] theorem State.setReg_pt (s : State) (p : Pos) (x : Option RegContext) : (s.setReg p x).pt = s.pt := rfl
@[simp] theorem State.setReg_gates (s : State) (p : Pos) (x : Option RegContext) : (s.setReg p x).gates = s.gates := rfl
@[simp] theorem State.setReg_pch (s : State) (p : Pos) (x : Option RegContext) : (s.setReg p x).pch = s.pch := rfl
@[simp] theorem State.setReg_rules (s : State) (p : Pos) (x : Option RegContext) : (s.setReg p x).rules = s.rules := rfl
@[simp] theorem State.setReg_srs (s : State) (p : Pos) (x : Option RegContext) : (s.setReg p x).srs = s.srs := rfl
@[simp] theorem State.setReg_bli (s : State) (p : Pos) (x : Option RegContext) : (s.setReg p x).bli = s.bli := rfl
@[simp] theorem State.setReg_pending (s : State) (p : Pos) (x : Option RegContext) : (s.setReg p x).pending = s.pending := rfl
@[simp] theorem State.setReg_psc_plan (s : State) (p : Pos) (x : Option RegContext) :
    (s.setReg p x).psc.plan = s.psc.plan := rfl
@[simp] theorem State.setReg_psc_stepState (s : State) (p : Pos) (x : Option RegContext) :
    (s.setReg p x).psc.stepState = s.psc.stepState := rfl
@[simp] theorem State.setReg_psc_active (s : State) (p : Pos) (x : Option RegContext) :
    (s.setReg p x).psc.active = s.psc.active := rfl
@[simp] theorem State.setReg_psc_last (s : State) (p : Pos) (x : Option RegContext) :
    (s.setReg p x).psc.last = s.psc.last := rfl
@[simp] theorem State.setReg_psc_queued (s : State) (p : Pos) (x : Option RegContext) :
    (s.setReg p x).psc.queued = s.psc.queued := rfl
@[simp] theorem State.setReg_psc_running (s : State) (p : Pos) (x : Option RegContext) :
    (s.setReg p x).psc.running = s.psc.running := rfl
@[simp] theorem State.setReg_psc_timerUse (s : State) (p : Pos) (x : Option RegContext) :
    (s.setReg p x).psc.timerUse = s.psc.timerUse := rfl
@[simp] theorem State.setReg_psc_useNo (s : State) (p : Pos) (x : Option RegContext) :
    (s.setReg p x).psc.useNo = s.psc.useNo := rfl
@[simp] theorem State.setReg_psc_raised (s : State) (p : Pos) (x : Option RegContext) :
    (s.setReg p x).psc.raised = s.psc.raised := rfl
@[simp] theorem State.setReg_psc_lastEvent (s : State) (p : Pos) (x : Option RegContext) :
    (s.setReg p x).psc.lastEvent = s.psc.lastEvent := rfl
@[simp] theorem State.setReg_psc_windowStart (s : State) (p : Pos) (x : Option RegContext) :
    (s.setReg p x).psc.windowStart = s.psc.windowStart := rfl
@[simp] theorem State.setReg_psc_windows (s : State) (p : Pos) (x : Option RegContext) :
    (s.setReg p x).psc.windows = s.psc.windows := rfl
@[simp] theorem State.setReg_pos (s : State) (p : Pos) (x : Option RegContext) (q : Pos) : (s.setReg p x).pos q = s.pos q := rfl
@[simp] theorem State.setReg_line (s : State) (p : Pos) (x : Option RegContext) (q : Pos) : (s.setReg p x).line q = s.line q := rfl
@[simp] theorem State.setReg_gate (s : State) (p : Pos) (x : Option RegContext) (q : Pos) : (s.setReg p x).gate q = s.gate q := rfl
@[simp] theorem State.setReg_window (s : State) (p : Pos) (x : Option RegContext) (q : Pos) : (s.setReg p x).window q = s.window q := rfl
@[simp] theorem State.setReg_reg_self (s : State) (p : Pos) (x : Option RegContext) : (s.setReg p x).reg p = x := by
  simp [State.setReg, State.reg]
theorem State.setReg_reg_ne (s : State) {p q : Pos} (h : q ≠ p) (x : Option RegContext) :
    (s.setReg p x).reg q = s.reg q := by
  simp [State.setReg, State.reg, atPos_putPos_ne, h]
theorem State.setReg_reg (s : State) (p : Pos) (x : Option RegContext) (q : Pos) :
    (s.setReg p x).reg q = if q = p then x else s.reg q := by
  simp [State.setReg, State.reg, atPos_putPos]
@[simp] theorem State.setReg_read (s : State) (p : Pos) : s.setReg p (s.reg p) = s := by
  simp [State.setReg, State.reg]
@[simp] theorem State.setReg_setReg (s : State) (p : Pos) (x : Option RegContext) (y) : (s.setReg p x).setReg p y = s.setReg p y := by
  simp [State.setReg]
@[simp] theorem State.setReg_chan (s : State) (p : Pos) (x : Option RegContext) (q : Pos) : (s.setReg p x).chan q = s.chan q := rfl
@[simp] theorem State.setReg_identified (s : State) (p : Pos) (x : Option RegContext) (q : Pos) : (s.setReg p x).identified q = s.identified q := rfl
@[simp] theorem State.setReg_flow (s : State) (p : Pos) (x : Option RegContext) (q : Pos) : (s.setReg p x).flow q = s.flow q := rfl
@[simp] theorem State.setReg_marks (s : State) (p : Pos) (x : Option RegContext) (q : Pos) : (s.setReg p x).marks q = s.marks q := rfl

/-! ### setChan -/

@[simp] theorem State.setChan_strap (s : State) (p : Pos) (x : Channel) : (s.setChan p x).strap = s.strap := rfl
@[simp] theorem State.setChan_piu (s : State) (p : Pos) (x : Channel) : (s.setChan p x).piu = s.piu := rfl
@[simp] theorem State.setChan_pt (s : State) (p : Pos) (x : Channel) : (s.setChan p x).pt = s.pt := rfl
@[simp] theorem State.setChan_psc (s : State) (p : Pos) (x : Channel) : (s.setChan p x).psc = s.psc := rfl
@[simp] theorem State.setChan_gates (s : State) (p : Pos) (x : Channel) : (s.setChan p x).gates = s.gates := rfl
@[simp] theorem State.setChan_rules (s : State) (p : Pos) (x : Channel) : (s.setChan p x).rules = s.rules := rfl
@[simp] theorem State.setChan_srs (s : State) (p : Pos) (x : Channel) : (s.setChan p x).srs = s.srs := rfl
@[simp] theorem State.setChan_bli (s : State) (p : Pos) (x : Channel) : (s.setChan p x).bli = s.bli := rfl
@[simp] theorem State.setChan_pending (s : State) (p : Pos) (x : Channel) : (s.setChan p x).pending = s.pending := rfl
@[simp] theorem State.setChan_pch_profile (s : State) (p : Pos) (x : Channel) :
    (s.setChan p x).pch.profile = s.pch.profile := rfl
@[simp] theorem State.setChan_pch_identify (s : State) (p : Pos) (x : Channel) :
    (s.setChan p x).pch.identify = s.pch.identify := rfl
@[simp] theorem State.setChan_pch_registerRead (s : State) (p : Pos) (x : Channel) :
    (s.setChan p x).pch.registerRead = s.pch.registerRead := rfl
@[simp] theorem State.setChan_pch_identified (s : State) (p : Pos) (x : Channel) :
    (s.setChan p x).pch.identified = s.pch.identified := rfl
@[simp] theorem State.setChan_pos (s : State) (p : Pos) (x : Channel) (q : Pos) : (s.setChan p x).pos q = s.pos q := rfl
@[simp] theorem State.setChan_line (s : State) (p : Pos) (x : Channel) (q : Pos) : (s.setChan p x).line q = s.line q := rfl
@[simp] theorem State.setChan_gate (s : State) (p : Pos) (x : Channel) (q : Pos) : (s.setChan p x).gate q = s.gate q := rfl
@[simp] theorem State.setChan_window (s : State) (p : Pos) (x : Channel) (q : Pos) : (s.setChan p x).window q = s.window q := rfl
@[simp] theorem State.setChan_reg (s : State) (p : Pos) (x : Channel) (q : Pos) : (s.setChan p x).reg q = s.reg q := rfl
@[simp] theorem State.setChan_chan_self (s : State) (p : Pos) (x : Channel) : (s.setChan p x).chan p = x := by
  simp [State.setChan, State.chan]
theorem State.setChan_chan_ne (s : State) {p q : Pos} (h : q ≠ p) (x : Channel) :
    (s.setChan p x).chan q = s.chan q := by
  simp [State.setChan, State.chan, atPos_putPos_ne, h]
theorem State.setChan_chan (s : State) (p : Pos) (x : Channel) (q : Pos) :
    (s.setChan p x).chan q = if q = p then x else s.chan q := by
  simp [State.setChan, State.chan, atPos_putPos]
@[simp] theorem State.setChan_read (s : State) (p : Pos) : s.setChan p (s.chan p) = s := by
  simp [State.setChan, State.chan]
@[simp] theorem State.setChan_setChan (s : State) (p : Pos) (x : Channel) (y) : (s.setChan p x).setChan p y = s.setChan p y := by
  simp [State.setChan]
@[simp] theorem State.setChan_identified (s : State) (p : Pos) (x : Channel) (q : Pos) : (s.setChan p x).identified q = s.identified q := rfl
@[simp] theorem State.setChan_flow (s : State) (p : Pos) (x : Channel) (q : Pos) : (s.setChan p x).flow q = s.flow q := rfl
@[simp] theorem State.setChan_marks (s : State) (p : Pos) (x : Channel) (q : Pos) : (s.setChan p x).marks q = s.marks q := rfl

/-! ### setIdentified -/

@[simp] theorem State.setIdentified_strap (s : State) (p : Pos) (x : Option IdentifyOutcome) : (s.setIdentified p x).strap = s.strap := rfl
@[simp] theorem State.setIdentified_piu (s : State) (p : Pos) (x : Option IdentifyOutcome) : (s.setIdentified p x).piu = s.piu := rfl
@[simp] theorem State.setIdentified_pt (s : State) (p : Pos) (x : Option IdentifyOutcome) : (s.setIdentified p x).pt = s.pt := rfl
@[simp] theorem State.setIdentified_psc (s : State) (p : Pos) (x : Option IdentifyOutcome) : (s.setIdentified p x).psc = s.psc := rfl
@[simp] theorem State.setIdentified_gates (s : State) (p : Pos) (x : Option IdentifyOutcome) : (s.setIdentified p x).gates = s.gates := rfl
@[simp] theorem State.setIdentified_rules (s : State) (p : Pos) (x : Option IdentifyOutcome) : (s.setIdentified p x).rules = s.rules := rfl
@[simp] theorem State.setIdentified_srs (s : State) (p : Pos) (x : Option IdentifyOutcome) : (s.setIdentified p x).srs = s.srs := rfl
@[simp] theorem State.setIdentified_bli (s : State) (p : Pos) (x : Option IdentifyOutcome) : (s.setIdentified p x).bli = s.bli := rfl
@[simp] theorem State.setIdentified_pending (s : State) (p : Pos) (x : Option IdentifyOutcome) : (s.setIdentified p x).pending = s.pending := rfl
@[simp] theorem State.setIdentified_pch_profile (s : State) (p : Pos) (x : Option IdentifyOutcome) :
    (s.setIdentified p x).pch.profile = s.pch.profile := rfl
@[simp] theorem State.setIdentified_pch_identify (s : State) (p : Pos) (x : Option IdentifyOutcome) :
    (s.setIdentified p x).pch.identify = s.pch.identify := rfl
@[simp] theorem State.setIdentified_pch_registerRead (s : State) (p : Pos) (x : Option IdentifyOutcome) :
    (s.setIdentified p x).pch.registerRead = s.pch.registerRead := rfl
@[simp] theorem State.setIdentified_pch_channels (s : State) (p : Pos) (x : Option IdentifyOutcome) :
    (s.setIdentified p x).pch.channels = s.pch.channels := rfl
@[simp] theorem State.setIdentified_pos (s : State) (p : Pos) (x : Option IdentifyOutcome) (q : Pos) : (s.setIdentified p x).pos q = s.pos q := rfl
@[simp] theorem State.setIdentified_line (s : State) (p : Pos) (x : Option IdentifyOutcome) (q : Pos) : (s.setIdentified p x).line q = s.line q := rfl
@[simp] theorem State.setIdentified_gate (s : State) (p : Pos) (x : Option IdentifyOutcome) (q : Pos) : (s.setIdentified p x).gate q = s.gate q := rfl
@[simp] theorem State.setIdentified_window (s : State) (p : Pos) (x : Option IdentifyOutcome) (q : Pos) : (s.setIdentified p x).window q = s.window q := rfl
@[simp] theorem State.setIdentified_reg (s : State) (p : Pos) (x : Option IdentifyOutcome) (q : Pos) : (s.setIdentified p x).reg q = s.reg q := rfl
@[simp] theorem State.setIdentified_chan (s : State) (p : Pos) (x : Option IdentifyOutcome) (q : Pos) : (s.setIdentified p x).chan q = s.chan q := rfl
@[simp] theorem State.setIdentified_identified_self (s : State) (p : Pos) (x : Option IdentifyOutcome) : (s.setIdentified p x).identified p = x := by
  simp [State.setIdentified, State.identified]
theorem State.setIdentified_identified_ne (s : State) {p q : Pos} (h : q ≠ p) (x : Option IdentifyOutcome) :
    (s.setIdentified p x).identified q = s.identified q := by
  simp [State.setIdentified, State.identified, atPos_putPos_ne, h]
theorem State.setIdentified_identified (s : State) (p : Pos) (x : Option IdentifyOutcome) (q : Pos) :
    (s.setIdentified p x).identified q = if q = p then x else s.identified q := by
  simp [State.setIdentified, State.identified, atPos_putPos]
@[simp] theorem State.setIdentified_read (s : State) (p : Pos) : s.setIdentified p (s.identified p) = s := by
  simp [State.setIdentified, State.identified]
@[simp] theorem State.setIdentified_setIdentified (s : State) (p : Pos) (x : Option IdentifyOutcome) (y) : (s.setIdentified p x).setIdentified p y = s.setIdentified p y := by
  simp [State.setIdentified]
@[simp] theorem State.setIdentified_flow (s : State) (p : Pos) (x : Option IdentifyOutcome) (q : Pos) : (s.setIdentified p x).flow q = s.flow q := rfl
@[simp] theorem State.setIdentified_marks (s : State) (p : Pos) (x : Option IdentifyOutcome) (q : Pos) : (s.setIdentified p x).marks q = s.marks q := rfl

/-! ### setFlow -/

@[simp] theorem State.setFlow_strap (s : State) (p : Pos) (x : Option SealFlow) : (s.setFlow p x).strap = s.strap := rfl
@[simp] theorem State.setFlow_piu (s : State) (p : Pos) (x : Option SealFlow) : (s.setFlow p x).piu = s.piu := rfl
@[simp] theorem State.setFlow_pt (s : State) (p : Pos) (x : Option SealFlow) : (s.setFlow p x).pt = s.pt := rfl
@[simp] theorem State.setFlow_psc (s : State) (p : Pos) (x : Option SealFlow) : (s.setFlow p x).psc = s.psc := rfl
@[simp] theorem State.setFlow_gates (s : State) (p : Pos) (x : Option SealFlow) : (s.setFlow p x).gates = s.gates := rfl
@[simp] theorem State.setFlow_pch (s : State) (p : Pos) (x : Option SealFlow) : (s.setFlow p x).pch = s.pch := rfl
@[simp] theorem State.setFlow_rules (s : State) (p : Pos) (x : Option SealFlow) : (s.setFlow p x).rules = s.rules := rfl
@[simp] theorem State.setFlow_bli (s : State) (p : Pos) (x : Option SealFlow) : (s.setFlow p x).bli = s.bli := rfl
@[simp] theorem State.setFlow_pending (s : State) (p : Pos) (x : Option SealFlow) : (s.setFlow p x).pending = s.pending := rfl
@[simp] theorem State.setFlow_srs_contents (s : State) (p : Pos) (x : Option SealFlow) :
    (s.setFlow p x).srs.contents = s.srs.contents := rfl
@[simp] theorem State.setFlow_srs_reserved (s : State) (p : Pos) (x : Option SealFlow) :
    (s.setFlow p x).srs.reserved = s.srs.reserved := rfl
@[simp] theorem State.setFlow_srs_pointer (s : State) (p : Pos) (x : Option SealFlow) :
    (s.setFlow p x).srs.pointer = s.srs.pointer := rfl
@[simp] theorem State.setFlow_srs_nextSeal (s : State) (p : Pos) (x : Option SealFlow) :
    (s.setFlow p x).srs.nextSeal = s.srs.nextSeal := rfl
@[simp] theorem State.setFlow_srs_highest (s : State) (p : Pos) (x : Option SealFlow) :
    (s.setFlow p x).srs.highest = s.srs.highest := rfl
@[simp] theorem State.setFlow_srs_phase (s : State) (p : Pos) (x : Option SealFlow) :
    (s.setFlow p x).srs.phase = s.srs.phase := rfl
@[simp] theorem State.setFlow_srs_queue (s : State) (p : Pos) (x : Option SealFlow) :
    (s.setFlow p x).srs.queue = s.srs.queue := rfl
@[simp] theorem State.setFlow_srs_running (s : State) (p : Pos) (x : Option SealFlow) :
    (s.setFlow p x).srs.running = s.srs.running := rfl
@[simp] theorem State.setFlow_srs_lastEvent (s : State) (p : Pos) (x : Option SealFlow) :
    (s.setFlow p x).srs.lastEvent = s.srs.lastEvent := rfl
@[simp] theorem State.setFlow_pos (s : State) (p : Pos) (x : Option SealFlow) (q : Pos) : (s.setFlow p x).pos q = s.pos q := rfl
@[simp] theorem State.setFlow_line (s : State) (p : Pos) (x : Option SealFlow) (q : Pos) : (s.setFlow p x).line q = s.line q := rfl
@[simp] theorem State.setFlow_gate (s : State) (p : Pos) (x : Option SealFlow) (q : Pos) : (s.setFlow p x).gate q = s.gate q := rfl
@[simp] theorem State.setFlow_window (s : State) (p : Pos) (x : Option SealFlow) (q : Pos) : (s.setFlow p x).window q = s.window q := rfl
@[simp] theorem State.setFlow_reg (s : State) (p : Pos) (x : Option SealFlow) (q : Pos) : (s.setFlow p x).reg q = s.reg q := rfl
@[simp] theorem State.setFlow_chan (s : State) (p : Pos) (x : Option SealFlow) (q : Pos) : (s.setFlow p x).chan q = s.chan q := rfl
@[simp] theorem State.setFlow_identified (s : State) (p : Pos) (x : Option SealFlow) (q : Pos) : (s.setFlow p x).identified q = s.identified q := rfl
@[simp] theorem State.setFlow_flow_self (s : State) (p : Pos) (x : Option SealFlow) : (s.setFlow p x).flow p = x := by
  simp [State.setFlow, State.flow]
theorem State.setFlow_flow_ne (s : State) {p q : Pos} (h : q ≠ p) (x : Option SealFlow) :
    (s.setFlow p x).flow q = s.flow q := by
  simp [State.setFlow, State.flow, atPos_putPos_ne, h]
theorem State.setFlow_flow (s : State) (p : Pos) (x : Option SealFlow) (q : Pos) :
    (s.setFlow p x).flow q = if q = p then x else s.flow q := by
  simp [State.setFlow, State.flow, atPos_putPos]
@[simp] theorem State.setFlow_read (s : State) (p : Pos) : s.setFlow p (s.flow p) = s := by
  simp [State.setFlow, State.flow]
@[simp] theorem State.setFlow_setFlow (s : State) (p : Pos) (x : Option SealFlow) (y) : (s.setFlow p x).setFlow p y = s.setFlow p y := by
  simp [State.setFlow]
@[simp] theorem State.setFlow_marks (s : State) (p : Pos) (x : Option SealFlow) (q : Pos) : (s.setFlow p x).marks q = s.marks q := rfl

/-! ### setMarks -/

@[simp] theorem State.setMarks_strap (s : State) (p : Pos) (x : PosMarks) : (s.setMarks p x).strap = s.strap := rfl
@[simp] theorem State.setMarks_piu (s : State) (p : Pos) (x : PosMarks) : (s.setMarks p x).piu = s.piu := rfl
@[simp] theorem State.setMarks_pt (s : State) (p : Pos) (x : PosMarks) : (s.setMarks p x).pt = s.pt := rfl
@[simp] theorem State.setMarks_psc (s : State) (p : Pos) (x : PosMarks) : (s.setMarks p x).psc = s.psc := rfl
@[simp] theorem State.setMarks_gates (s : State) (p : Pos) (x : PosMarks) : (s.setMarks p x).gates = s.gates := rfl
@[simp] theorem State.setMarks_pch (s : State) (p : Pos) (x : PosMarks) : (s.setMarks p x).pch = s.pch := rfl
@[simp] theorem State.setMarks_rules (s : State) (p : Pos) (x : PosMarks) : (s.setMarks p x).rules = s.rules := rfl
@[simp] theorem State.setMarks_srs (s : State) (p : Pos) (x : PosMarks) : (s.setMarks p x).srs = s.srs := rfl
@[simp] theorem State.setMarks_pending (s : State) (p : Pos) (x : PosMarks) : (s.setMarks p x).pending = s.pending := rfl
@[simp] theorem State.setMarks_bli_rxUp (s : State) (p : Pos) (x : PosMarks) :
    (s.setMarks p x).bli.rxUp = s.bli.rxUp := rfl
@[simp] theorem State.setMarks_bli_rxDown (s : State) (p : Pos) (x : PosMarks) :
    (s.setMarks p x).bli.rxDown = s.bli.rxDown := rfl
@[simp] theorem State.setMarks_bli_txUp (s : State) (p : Pos) (x : PosMarks) :
    (s.setMarks p x).bli.txUp = s.bli.txUp := rfl
@[simp] theorem State.setMarks_bli_txDown (s : State) (p : Pos) (x : PosMarks) :
    (s.setMarks p x).bli.txDown = s.bli.txDown := rfl
@[simp] theorem State.setMarks_bli_downBuffer (s : State) (p : Pos) (x : PosMarks) :
    (s.setMarks p x).bli.downBuffer = s.bli.downBuffer := rfl
@[simp] theorem State.setMarks_bli_forward (s : State) (p : Pos) (x : PosMarks) :
    (s.setMarks p x).bli.forward = s.bli.forward := rfl
@[simp] theorem State.setMarks_bli_answers (s : State) (p : Pos) (x : PosMarks) :
    (s.setMarks p x).bli.answers = s.bli.answers := rfl
@[simp] theorem State.setMarks_bli_reports (s : State) (p : Pos) (x : PosMarks) :
    (s.setMarks p x).bli.reports = s.bli.reports := rfl
@[simp] theorem State.setMarks_bli_owed (s : State) (p : Pos) (x : PosMarks) :
    (s.setMarks p x).bli.owed = s.bli.owed := rfl
@[simp] theorem State.setMarks_bli_held (s : State) (p : Pos) (x : PosMarks) :
    (s.setMarks p x).bli.held = s.bli.held := rfl
@[simp] theorem State.setMarks_bli_markRefLost (s : State) (p : Pos) (x : PosMarks) :
    (s.setMarks p x).bli.markRefLost = s.bli.markRefLost := rfl
@[simp] theorem State.setMarks_bli_markStepState (s : State) (p : Pos) (x : PosMarks) :
    (s.setMarks p x).bli.markStepState = s.bli.markStepState := rfl
@[simp] theorem State.setMarks_bli_markStore (s : State) (p : Pos) (x : PosMarks) :
    (s.setMarks p x).bli.markStore = s.bli.markStore := rfl
@[simp] theorem State.setMarks_bli_sealDone (s : State) (p : Pos) (x : PosMarks) :
    (s.setMarks p x).bli.sealDone = s.bli.sealDone := rfl
@[simp] theorem State.setMarks_bli_upErrors (s : State) (p : Pos) (x : PosMarks) :
    (s.setMarks p x).bli.upErrors = s.bli.upErrors := rfl
@[simp] theorem State.setMarks_bli_downErrors (s : State) (p : Pos) (x : PosMarks) :
    (s.setMarks p x).bli.downErrors = s.bli.downErrors := rfl
@[simp] theorem State.setMarks_bli_forwardDrops (s : State) (p : Pos) (x : PosMarks) :
    (s.setMarks p x).bli.forwardDrops = s.bli.forwardDrops := rfl
@[simp] theorem State.setMarks_bli_commandDrops (s : State) (p : Pos) (x : PosMarks) :
    (s.setMarks p x).bli.commandDrops = s.bli.commandDrops := rfl
@[simp] theorem State.setMarks_bli_sealDrops (s : State) (p : Pos) (x : PosMarks) :
    (s.setMarks p x).bli.sealDrops = s.bli.sealDrops := rfl
@[simp] theorem State.setMarks_bli_fullPending (s : State) (p : Pos) (x : PosMarks) :
    (s.setMarks p x).bli.fullPending = s.bli.fullPending := rfl
@[simp] theorem State.setMarks_pos (s : State) (p : Pos) (x : PosMarks) (q : Pos) : (s.setMarks p x).pos q = s.pos q := rfl
@[simp] theorem State.setMarks_line (s : State) (p : Pos) (x : PosMarks) (q : Pos) : (s.setMarks p x).line q = s.line q := rfl
@[simp] theorem State.setMarks_gate (s : State) (p : Pos) (x : PosMarks) (q : Pos) : (s.setMarks p x).gate q = s.gate q := rfl
@[simp] theorem State.setMarks_window (s : State) (p : Pos) (x : PosMarks) (q : Pos) : (s.setMarks p x).window q = s.window q := rfl
@[simp] theorem State.setMarks_reg (s : State) (p : Pos) (x : PosMarks) (q : Pos) : (s.setMarks p x).reg q = s.reg q := rfl
@[simp] theorem State.setMarks_chan (s : State) (p : Pos) (x : PosMarks) (q : Pos) : (s.setMarks p x).chan q = s.chan q := rfl
@[simp] theorem State.setMarks_identified (s : State) (p : Pos) (x : PosMarks) (q : Pos) : (s.setMarks p x).identified q = s.identified q := rfl
@[simp] theorem State.setMarks_flow (s : State) (p : Pos) (x : PosMarks) (q : Pos) : (s.setMarks p x).flow q = s.flow q := rfl
@[simp] theorem State.setMarks_marks_self (s : State) (p : Pos) (x : PosMarks) : (s.setMarks p x).marks p = x := by
  simp [State.setMarks, State.marks]
theorem State.setMarks_marks_ne (s : State) {p q : Pos} (h : q ≠ p) (x : PosMarks) :
    (s.setMarks p x).marks q = s.marks q := by
  simp [State.setMarks, State.marks, atPos_putPos_ne, h]
theorem State.setMarks_marks (s : State) (p : Pos) (x : PosMarks) (q : Pos) :
    (s.setMarks p x).marks q = if q = p then x else s.marks q := by
  simp [State.setMarks, State.marks, atPos_putPos]
@[simp] theorem State.setMarks_read (s : State) (p : Pos) : s.setMarks p (s.marks p) = s := by
  simp [State.setMarks, State.marks]
@[simp] theorem State.setMarks_setMarks (s : State) (p : Pos) (x : PosMarks) (y) : (s.setMarks p x).setMarks p y = s.setMarks p y := by
  simp [State.setMarks]

/-! ### A channel freed or cut -/

@[simp] theorem Channel.free_state (c : Channel) : c.free.state = .idle := rfl
@[simp] theorem Channel.free_buffer (c : Channel) : c.free.buffer = .empty := rfl
@[simp] theorem Channel.free_wire (c : Channel) : c.free.wire = c.wire := rfl
@[simp] theorem Channel.free_internal (c : Channel) : c.free.internal = c.internal := rfl
@[simp] theorem Channel.free_relay (c : Channel) : c.free.relay = c.relay := rfl
@[simp] theorem Channel.cut_state (c : Channel) : c.cut.state = .idle := rfl
@[simp] theorem Channel.cut_buffer (c : Channel) : c.cut.buffer = .empty := rfl
@[simp] theorem Channel.cut_wire (c : Channel) : c.cut.wire = c.onLine := rfl
@[simp] theorem Channel.cut_internal (c : Channel) : c.cut.internal = c.internal := rfl
@[simp] theorem Channel.cut_relay (c : Channel) : c.cut.relay = c.relay := rfl
@[simp] theorem Channel.resetWith_state (w : List WireChar) : (Channel.resetWith w).state = .idle := rfl
@[simp] theorem Channel.resetWith_buffer (w : List WireChar) : (Channel.resetWith w).buffer = .empty := rfl
@[simp] theorem Channel.resetWith_wire (w : List WireChar) : (Channel.resetWith w).wire = w := rfl
@[simp] theorem Channel.resetWith_internal (w : List WireChar) : (Channel.resetWith w).internal = none := rfl
@[simp] theorem Channel.resetWith_relay (w : List WireChar) : (Channel.resetWith w).relay = .empty := rfl

end Sys2Proof.Machine
end

