-- ==== Sys2Proof/Laws/Link.lean ====
section
/-! SUPPORT. The laws of the answer path: what the taking of a command can do, and what an answer changes. -/

namespace Sys2Proof.Machine

@[simp] theorem pushAnswer_psc (t : Byte) (a : Reply) (s : State) : (pushAnswer t a s).psc = s.psc := rfl
@[simp] theorem pushAnswer_pt (t : Byte) (a : Reply) (s : State) : (pushAnswer t a s).pt = s.pt := rfl
@[simp] theorem pushAnswer_piu (t : Byte) (a : Reply) (s : State) : (pushAnswer t a s).piu = s.piu := rfl
@[simp] theorem pushAnswer_pch (t : Byte) (a : Reply) (s : State) : (pushAnswer t a s).pch = s.pch := rfl
@[simp] theorem pushAnswer_srs (t : Byte) (a : Reply) (s : State) : (pushAnswer t a s).srs = s.srs := rfl
@[simp] theorem pushAnswer_gates (t : Byte) (a : Reply) (s : State) : (pushAnswer t a s).gates = s.gates := rfl
@[simp] theorem pushAnswer_rules (t : Byte) (a : Reply) (s : State) : (pushAnswer t a s).rules = s.rules := rfl
@[simp] theorem pushAnswer_strap (t : Byte) (a : Reply) (s : State) : (pushAnswer t a s).strap = s.strap := rfl
@[simp] theorem pushAnswer_pending (t : Byte) (a : Reply) (s : State) :
    (pushAnswer t a s).pending = s.pending := rfl
@[simp] theorem pushAnswer_answers (t : Byte) (a : Reply) (s : State) :
    (pushAnswer t a s).bli.answers =
      s.bli.answers ++ [{ cell := answerCell s t a, actsFull := false }] := rfl

@[simp] theorem dropCommand_drops (s : State) :
    (dropCommand s).bli.commandDrops = min (s.bli.commandDrops + 1) 65535 := rfl

/-- A command is passed over, dropped and counted, or acted on and answered (R184, R187). -/
theorem takeCommand_cases (tag : Byte) (act : State → State × Reply) (s : State) :
    (s.deaf = true ∧ takeCommand tag act s = s) ∨
    (s.deaf = false ∧ 8 ≤ s.bli.answers.length ∧ takeCommand tag act s = dropCommand s) ∨
    (s.deaf = false ∧ s.bli.answers.length < 8 ∧
      takeCommand tag act s = pushAnswer tag (act s).2 (act s).1) := by
  unfold takeCommand State.answersFull
  cases s.deaf
  · by_cases h : 8 ≤ s.bli.answers.length
    · simp [h, Config.answerPlaces]
    · simp [h, Config.answerPlaces, Nat.lt_of_not_le h]
  · simp

/-- A command that may be broadcast is taken as an addressed one, passed over, or acted on without an answer
(R186, R187). -/
theorem takeVia_cases (via : Via) (act : State → State × Reply) (s : State) :
    (∃ tag, via = .addressed tag ∧ takeVia via act s = takeCommand tag act s) ∨
    (via = .broadcast ∧ s.deaf = true ∧ takeVia via act s = s) ∨
    (via = .broadcast ∧ s.deaf = false ∧ takeVia via act s = (act s).1) := by
  cases via with
  | addressed tag => exact .inl ⟨tag, rfl, rfl⟩
  | broadcast => cases h : s.deaf <;> simp [takeVia, h]

/-- A command that the module takes: its owner's act, and the answer at the tail of the queue (R184). -/
theorem takeCommand_taken {tag : Byte} {act : State → State × Reply} {s : State} (h : s.deaf = false)
    (k : s.bli.answers.length < 8) : takeCommand tag act s = pushAnswer tag (act s).2 (act s).1 := by
  rcases takeCommand_cases tag act s with ⟨e, -⟩ | ⟨-, e, -⟩ | ⟨-, -, e⟩
  · rw [h] at e; exact absurd e (by simp)
  · omega
  · exact e

end Sys2Proof.Machine
end

