-- ==== Sys2Proof/Laws/Reports.lean ====
section
/-! SUPPORT. What the building of reports can do, said once: reports join their queue, and their marks and entries go.
One lemma for each part of the state that it leaves. -/

namespace Sys2Proof.Machine

/-- What the building of reports does between two states: it adds to the report queue within its room, clears marks and
removes SEAL_DONE entries, and leaves all else (R190). -/
structure Built (s t : State) : Prop where
  rest     : t = { s with bli := { s.bli with
    reports := t.bli.reports, markRefLost := t.bli.markRefLost, markStepState := t.bli.markStepState,
    markStore := t.bli.markStore, marks := t.bli.marks, sealDone := t.bli.sealDone } }
  reports  : ∃ l, t.bli.reports = s.bli.reports ++ l
  room     : s.bli.reports.length ≤ 16 → t.bli.reports.length ≤ 16
  sealDone : t.bli.sealDone.length ≤ s.bli.sealDone.length

theorem Built.refl (s : State) : Built s s := ⟨rfl, ⟨[], by simp⟩, id, Nat.le_refl _⟩

theorem Built.trans {s t u : State} (h : Built s t) (k : Built t u) : Built s u where
  rest := by have a := k.rest; rw [h.rest] at a; exact a
  reports := by
    obtain ⟨l, hl⟩ := h.reports
    obtain ⟨m, hm⟩ := k.reports
    exact ⟨l ++ m, by rw [hm, hl, List.append_assoc]⟩
  room := fun x => k.room (h.room x)
  sealDone := Nat.le_trans k.sealDone h.sealDone

/-- One report pushed on a state that differs in its marks and entries alone, where the queue has room. -/
theorem pushReport_built {s t : State} (payload : List Byte) (room : s.bli.reports.length < 16)
    (h : t = { s with bli := { s.bli with
      markRefLost := t.bli.markRefLost, markStepState := t.bli.markStepState, markStore := t.bli.markStore,
      marks := t.bli.marks, sealDone := t.bli.sealDone } })
    (k : t.bli.sealDone.length ≤ s.bli.sealDone.length) : Built s (pushReport payload t) := by
  have e : t.bli.reports = s.bli.reports := by rw [h]
  refine ⟨?_, ⟨[reportCell t payload], by simp only [pushReport, e]⟩, fun _ => ?_, k⟩
  · conv => lhs; rw [h]
    simp only [pushReport]
    rw [h]
  · simp only [pushReport, List.length_append, List.length_singleton, e]; omega

theorem buildGateReport_built (p : Pos) (s : State) (room : s.bli.reports.length < 16) :
    Built s (buildGateReport p s) := by
  unfold buildGateReport
  split
  · exact pushReport_built _ room rfl (Nat.le_refl _)
  · exact .refl s

theorem buildIdentifyReport_built (p : Pos) (s : State) (room : s.bli.reports.length < 16) :
    Built s (buildIdentifyReport p s) := by
  unfold buildIdentifyReport
  split
  · exact pushReport_built _ room rfl (Nat.le_refl _)
  · exact buildGateReport_built p s room

theorem buildSealReport_built (p : Pos) (s : State) (room : s.bli.reports.length < 16) :
    Built s (buildSealReport p s) := by
  unfold buildSealReport
  split
  · exact pushReport_built _ room rfl (List.eraseP_sublist.length_le)
  · exact buildIdentifyReport_built p s room

theorem buildPositionReport_built (p : Pos) (s : State) (room : s.bli.reports.length < 16) :
    Built s (buildPositionReport p s) := by
  unfold buildPositionReport
  split
  · exact pushReport_built _ room rfl (Nat.le_refl _)
  · exact buildSealReport_built p s room

theorem buildReport_built (s : State) (room : s.bli.reports.length < 16) : Built s (buildReport s) := by
  unfold buildReport buildFirstPosition
  repeat' split
  · exact pushReport_built _ room rfl (Nat.le_refl _)
  · exact pushReport_built _ room rfl (Nat.le_refl _)
  · exact pushReport_built _ room rfl (Nat.le_refl _)
  · exact buildPositionReport_built _ s room
  · exact .refl s

/-- Outside a full queue there is room. -/
theorem room_of_not_full {s : State} (h : s.reportsFull = false) : s.bli.reports.length < 16 := by
  have : ¬ 16 ≤ s.bli.reports.length := of_decide_eq_false h
  omega

theorem room_of_due {s : State} (h : s.reportDue = true) : s.bli.reports.length < 16 := by
  refine room_of_not_full ?_
  simp only [State.reportDue, Bool.and_eq_true, Bool.not_eq_true'] at h
  exact h.2

/-- REPORT_BUILD builds one report at most. -/
theorem reportBuild_built (s : State) : Built s (reportBuild s) := by
  unfold reportBuild
  split
  · exact .refl s
  · exact buildReport_built s (room_of_not_full (Bool.eq_false_iff.2 ‹_›))

/-- A run of report building. -/
theorem buildReports_built (n : Nat) (s : State) : Built s (buildReports n s) := by
  induction n generalizing s with
  | zero => exact .refl s
  | succ n ih =>
    unfold buildReports
    split
    · exact (buildReport_built s (room_of_due ‹_›)).trans (ih _)
    · exact .refl s

/-- The building of every report that is due. -/
theorem buildDue_built (s : State) : Built s (buildDue s) := buildReports_built _ s

/-- With no report due there is nothing to build. -/
theorem buildDue_of_none_due {s : State} (h : s.reportDue = false) : buildDue s = s := by
  show (if s.reportDue then buildReports 15 (buildReport s) else s) = s
  rw [h]; rfl

@[simp] theorem buildDue_strap (s : State) : (buildDue s).strap = s.strap := by rw [(buildDue_built s).rest]
@[simp] theorem buildDue_piu (s : State) : (buildDue s).piu = s.piu := by rw [(buildDue_built s).rest]
@[simp] theorem buildDue_pt (s : State) : (buildDue s).pt = s.pt := by rw [(buildDue_built s).rest]
@[simp] theorem buildDue_psc (s : State) : (buildDue s).psc = s.psc := by rw [(buildDue_built s).rest]
@[simp] theorem buildDue_gates (s : State) : (buildDue s).gates = s.gates := by rw [(buildDue_built s).rest]
@[simp] theorem buildDue_pch (s : State) : (buildDue s).pch = s.pch := by rw [(buildDue_built s).rest]
@[simp] theorem buildDue_rules (s : State) : (buildDue s).rules = s.rules := by rw [(buildDue_built s).rest]
@[simp] theorem buildDue_srs (s : State) : (buildDue s).srs = s.srs := by rw [(buildDue_built s).rest]
@[simp] theorem buildDue_pending (s : State) : (buildDue s).pending = s.pending := by
  rw [(buildDue_built s).rest]
@[simp] theorem buildDue_answers (s : State) : (buildDue s).bli.answers = s.bli.answers := by
  rw [(buildDue_built s).rest]
@[simp] theorem buildDue_held (s : State) : (buildDue s).bli.held = s.bli.held := by rw [(buildDue_built s).rest]
@[simp] theorem buildDue_owed (s : State) : (buildDue s).bli.owed = s.bli.owed := by rw [(buildDue_built s).rest]
@[simp] theorem buildDue_forward (s : State) : (buildDue s).bli.forward = s.bli.forward := by
  rw [(buildDue_built s).rest]
@[simp] theorem buildDue_fullPending (s : State) : (buildDue s).bli.fullPending = s.bli.fullPending := by
  rw [(buildDue_built s).rest]

@[simp] theorem buildDue_pos (s : State) (p : Pos) : (buildDue s).pos p = s.pos p := by simp [State.pos]
@[simp] theorem buildDue_line (s : State) (p : Pos) : (buildDue s).line p = s.line p := by simp [State.line]
@[simp] theorem buildDue_gate (s : State) (p : Pos) : (buildDue s).gate p = s.gate p := by simp [State.gate]
@[simp] theorem buildDue_window (s : State) (p : Pos) : (buildDue s).window p = s.window p := by
  simp [State.window]
@[simp] theorem buildDue_reg (s : State) (p : Pos) : (buildDue s).reg p = s.reg p := by simp [State.reg]
@[simp] theorem buildDue_chan (s : State) (p : Pos) : (buildDue s).chan p = s.chan p := by simp [State.chan]
@[simp] theorem buildDue_flow (s : State) (p : Pos) : (buildDue s).flow p = s.flow p := by simp [State.flow]

end Sys2Proof.Machine
end

