-- ==== Sys2Proof/Laws/Local.lean ====
section
/-! SUPPORT. The frame of the acts that work on positions, gates, steps and channels: what none of them
touches, and that each keeps the bounds of corrections, tallies and counts. One lemma for each act, made from
those of the acts it calls. -/

namespace Sys2Proof.Machine

open Sys2Proof.Safety

/-- The link part of the BLI: all of it but the marks, the SEAL_DONE entries and the report queue, which positions,
steps and the building of reports change. -/
def linkPart (b : Bli) : Bli :=
  { b with
    marks := Vector.replicate 12 PosMarks.clear, markRefLost := false, markStepState := false, markStore := false,
    sealDone := [], reports := [] }

/-- The report queue keeps its room and no SEAL_DONE entry is added. -/
structure QueuesKept (s t : State) : Prop where
  room     : s.bli.reports.length ≤ 16 → t.bli.reports.length ≤ 16
  sealDone : t.bli.sealDone.length ≤ s.bli.sealDone.length

theorem QueuesKept.trans {s t u : State} (h : QueuesKept s t) (k : QueuesKept t u) : QueuesKept s u :=
  ⟨fun x => k.room (h.room x), Nat.le_trans k.sealDone h.sealDone⟩

/-- The bounds that positions, lines and gates keep. -/
def Sound (s : State) : Prop := CorrectionsFit s ∧ CountsHeld s

/-- What a local act does: nothing outside the positions, the steps, the gates, the channels and the marks,
and no bound broken. -/
structure Local (s t : State) : Prop where
  strap        : t.strap = s.strap
  rules        : t.rules = s.rules
  pending      : t.pending = s.pending
  srs          : t.srs = s.srs
  trimLimit    : t.pt.trimLimit = s.pt.trimLimit
  gateReports  : t.pt.gateReports = s.pt.gateReports
  profile      : t.pch.profile = s.pch.profile
  identify     : t.pch.identify = s.pch.identify
  registerRead : t.pch.registerRead = s.pch.registerRead
  micros       : t.piu.micros = s.piu.micros
  millis       : t.piu.millis = s.piu.millis
  link         : linkPart t.bli = linkPart s.bli
  queues       : QueuesKept s t := by exact ⟨id, Nat.le_refl _⟩
  sound        : Sound s → Sound t
  filters      : FiltersFit s → FiltersFit t

@[simp] theorem accept_fst (l : List Byte) (s : State) : (accept l s).1 = s := rfl

@[simp] theorem refuse_fst (x : Status) (s : State) : (refuse x s).1 = s := rfl

@[simp] theorem acceptRecord_fst (p : Pos) (s : State) : (acceptRecord p s).1 = s := rfl

theorem Local.refl (s : State) : Local s s := 
  ⟨rfl, rfl, rfl, rfl, rfl, rfl, rfl, rfl, rfl, rfl, rfl, rfl, ⟨id, Nat.le_refl _⟩, id, id⟩

theorem Local.trans {s t u : State} (h : Local s t) (k : Local t u) : Local s u :=
  ⟨k.strap.trans h.strap, k.rules.trans h.rules, k.pending.trans h.pending, k.srs.trans h.srs,
    k.trimLimit.trans h.trimLimit, k.gateReports.trans h.gateReports, k.profile.trans h.profile,
    k.identify.trans h.identify, k.registerRead.trans h.registerRead, k.micros.trans h.micros,
    k.millis.trans h.millis, k.link.trans h.link, h.queues.trans k.queues, fun x => k.sound (h.sound x),
    fun x => k.filters (h.filters x)⟩

theorem Local.of_ite {s t u : State} {c : Prop} [Decidable c] (h : c → Local s t) (k : ¬c → Local s u) :
    Local s (if c then t else u) := by
  split
  · exact h ‹_›
  · exact k ‹_›

/-- An act whose fields are all equal by computation, and whose positions, lines and gates are unchanged. -/
theorem Local.of_eq {s t : State} (h1 : t.strap = s.strap) (h2 : t.rules = s.rules)
    (h3 : t.pending = s.pending) (h4 : t.srs = s.srs) (h5 : t.pt = s.pt) (h6 : t.pch.profile = s.pch.profile)
    (h7 : t.pch.identify = s.pch.identify) (h8 : t.pch.registerRead = s.pch.registerRead)
    (h9 : t.piu.micros = s.piu.micros) (h10 : t.piu.millis = s.piu.millis)
    (h11 : linkPart t.bli = linkPart s.bli) (h12 : t.piu.lines = s.piu.lines) (h13 : t.gates = s.gates)
    (h14 : QueuesKept s t := by exact ⟨id, Nat.le_refl _⟩) :
    Local s t where
  strap := h1
  rules := h2
  pending := h3
  srs := h4
  trimLimit := by rw [h5]
  gateReports := by rw [h5]
  profile := h6
  identify := h7
  registerRead := h8
  micros := h9
  millis := h10
  link := h11
  queues := h14
  sound := by
    intro h
    simpa [Sound, CorrectionsFit, CountsHeld, State.pos, State.line, State.gate, h5, h12, h13] using h
  filters := by
    intro h
    simpa [FiltersFit, State.pos, State.line, h5, h12] using h

/-- A run of local acts is local. -/
theorem Local.forEach {l : List Pos} {f : Pos → State → State} (h : ∀ p s, Local s (f p s)) (s : State) :
    Local s (forEach l f s) := by
  induction l generalizing s with
  | nil => exact .refl s
  | cons p l ih => exact (h p s).trans (ih (f p s))

/-! ### Replacements -/

theorem setPos_local {s : State} {p : Pos} {r : PositionRecord}
    (h : correctionFits (s.pos p) → correctionFits r) (hl : r.line = (s.pos p).line := by rfl) :
    Local s (s.setPos p r) where
  strap := rfl
  rules := rfl
  pending := rfl
  srs := rfl
  trimLimit := rfl
  gateReports := rfl
  profile := rfl
  identify := rfl
  registerRead := rfl
  micros := rfl
  millis := rfl
  link := rfl
  sound := by
    rintro ⟨hc, hk⟩
    refine ⟨fun q => ?_, hk⟩
    rw [State.setPos_pos]
    split
    · exact h (hc p)
    · exact hc q
  filters := by
    intro hf q
    rw [State.setPos_pos]
    split
    · rename_i e
      rw [hl, e]
      exact hf p
    · exact hf q

theorem setLine_local {s : State} {p : Pos} {l : Line} (h : (s.line p).tally ≤ 255 → l.tally ≤ 255)
    (hf : filterFits (s.pos p).line (s.line p) → filterFits (s.pos p).line l := by exact id) :
    Local s (s.setLine p l) where
  strap := rfl
  rules := rfl
  pending := rfl
  srs := rfl
  trimLimit := rfl
  gateReports := rfl
  profile := rfl
  identify := rfl
  registerRead := rfl
  micros := rfl
  millis := rfl
  link := rfl
  sound := by
    rintro ⟨hc, hl, hg⟩
    refine ⟨hc, fun q => ?_, hg⟩
    rw [State.setLine_line]
    split
    · exact h (hl p)
    · exact hl q
  filters := by
    intro hk q
    rw [State.setLine_line]
    split
    · rename_i e
      rw [e]
      exact hf (hk p)
    · exact hk q

theorem setGate_local {s : State} {p : Pos} {g : Option GateContext}
    (h : Sound s → ∀ c, g = some c → c.m ≤ 4294967295) : Local s (s.setGate p g) where
  strap := rfl
  rules := rfl
  pending := rfl
  srs := rfl
  trimLimit := rfl
  gateReports := rfl
  profile := rfl
  identify := rfl
  registerRead := rfl
  micros := rfl
  millis := rfl
  link := rfl
  sound := by
    intro hs
    refine ⟨hs.1, hs.2.1, fun q c hq => ?_⟩
    rw [State.setGate_gate] at hq
    split at hq
    · exact h hs c hq
    · exact hs.2.2 q c hq
  filters := id

theorem setWindow_local (s : State) (p : Pos) (w : Option WindowRecord) : Local s (s.setWindow p w) :=
  .of_eq rfl rfl rfl rfl rfl rfl rfl rfl rfl rfl rfl rfl rfl

theorem setReg_local (s : State) (p : Pos) (c : Option RegContext) : Local s (s.setReg p c) :=
  .of_eq rfl rfl rfl rfl rfl rfl rfl rfl rfl rfl rfl rfl rfl

theorem setChan_local (s : State) (p : Pos) (c : Channel) : Local s (s.setChan p c) :=
  .of_eq rfl rfl rfl rfl rfl rfl rfl rfl rfl rfl rfl rfl rfl

theorem setIdentified_local (s : State) (p : Pos) (o : Option IdentifyOutcome) :
    Local s (s.setIdentified p o) := .of_eq rfl rfl rfl rfl rfl rfl rfl rfl rfl rfl rfl rfl rfl

theorem setMarks_local (s : State) (p : Pos) (m : PosMarks) : Local s (s.setMarks p m) :=
  .of_eq rfl rfl rfl rfl rfl rfl rfl rfl rfl rfl rfl rfl rfl

theorem psc_local (s : State) (c : Psc) : Local s { s with psc := c } :=
  .of_eq rfl rfl rfl rfl rfl rfl rfl rfl rfl rfl rfl rfl rfl

/-! ### Marks and events -/

theorem markRefLost_local (s : State) : Local s (markRefLost s) :=
  .of_eq rfl rfl rfl rfl rfl rfl rfl rfl rfl rfl rfl rfl rfl

theorem recordStepEvent_local (e : StepEvent) (s : State) : Local s (recordStepEvent e s) :=
  .of_eq rfl rfl rfl rfl rfl rfl rfl rfl rfl rfl rfl rfl rfl

theorem markVerdict_local (p : Pos) (n : Fin 32) (s : State) : Local s (markVerdict p n s) := setMarks_local ..

theorem markIdentify_local (p : Pos) (s : State) : Local s (markIdentify p s) := setMarks_local ..

theorem markGateResult_local (p : Pos) (s : State) : Local s (markGateResult p s) :=
  .of_ite (fun _ => setMarks_local ..) (fun _ => .refl s)

/-- The building of reports touches nothing but the report queue, the marks and the SEAL_DONE entries. -/
theorem buildDue_local (s : State) : Local s (buildDue s) := by
  have h := buildDue_built s
  rw [h.rest]
  refine .of_eq rfl rfl rfl rfl rfl rfl rfl rfl rfl rfl rfl rfl rfl ⟨h.room, h.sealDone⟩

/-! ### Channels -/

/-- A record whose correction and meter are those of another fits as that one does. -/
theorem correctionFits_congr {r r' : PositionRecord} (h : r'.correction = r.correction) (k : r'.meter = r.meter)
    (f : correctionFits r) : correctionFits r' := by
  simpa [correctionFits, h, k] using f

/-- A record without a correction fits. -/
theorem correctionFits_none {r : PositionRecord} (h : r.correction = none) : correctionFits r := by
  simp [correctionFits, h]

theorem setRead_local (p : Pos) (x : ReadState) (s : State) : Local s (setRead p x s) := by
  unfold setRead
  split
  · exact .refl s
  · exact setReg_local ..

theorem placeOwed_local (p : Pos) (s : State) : Local s (placeOwed p s) :=
  .of_ite (fun _ => (setChan_local ..).trans (setRead_local ..)) (fun _ => .refl s)

theorem startedRead_local (p : Pos) (q : TemplateRequest) (s : State) : Local s (startedRead p q s) := by
  unfold startedRead
  split
  · exact .refl s
  · exact setRead_local ..

theorem startTemplate_local (p : Pos) (q : TemplateRequest) (s : State) : Local s (startTemplate p q s) :=
  ((setChan_local ..).trans (startedRead_local ..)).trans (placeOwed_local ..)

theorem startRelay_local (p : Pos) (r : RelayRequest) (s : State) : Local s (startRelay p r s) :=
  setChan_local ..

theorem tryStart_local (p : Pos) (s : State) : Local s (tryStart p s) := by
  unfold tryStart
  repeat' split
  all_goals first
    | exact .refl s
    | exact startTemplate_local ..
    | exact startRelay_local ..

theorem placeTemplate_local (p : Pos) (q : TemplateRequest) (s : State) : Local s (placeTemplate p q s) :=
  (setChan_local ..).trans (tryStart_local ..)

theorem placeRead_local (p : Pos) (s : State) : Local s (placeRead p s) :=
  (placeOwed_local ..).trans (tryStart_local ..)

theorem handRelay_local (p : Pos) (r : RelayRequest) (s : State) : Local s (handRelay p r s) :=
  (setChan_local ..).trans (tryStart_local ..)

theorem identifyOutcome_local (p : Pos) (o : IdentifyOutcome) (x : Option (List Byte)) (s : State) :
    Local s (identifyOutcome p o x s) := by
  unfold identifyOutcome
  exact ((setIdentified_local ..).trans (setPos_local (fun h => correctionFits_congr (by rfl) (by rfl) h))).trans
    (markIdentify_local ..)

theorem endRead_local (p : Pos) (s : State) : Local s (endRead p s) := setChan_local ..

/-! ### Verdicts -/

theorem demote_correction (r : PositionRecord) :
    (demote r).correction = r.correction ∧ (demote r).meter = r.meter := by
  unfold demote
  split <;> simp

theorem demote_line (r : PositionRecord) : (demote r).line = r.line := by
  unfold demote
  split <;> rfl

theorem recordVerdict_local (p : Pos) (n : Fin 32) (e : Entry) (s : State) :
    Local s (recordVerdict p n e s) := by
  unfold recordVerdict
  refine Local.trans (setPos_local (fun h => ?_) ?_) (markVerdict_local p n _)
  · exact correctionFits_congr (demote_correction _).1 (demote_correction _).2 (correctionFits_congr (by rfl) (by rfl) h)
  · rw [demote_line]

theorem leaveRunning_local (p : Pos) (s : State) : Local s (leaveRunning p s) := psc_local ..

theorem giveVerdict_local (p : Pos) (e : Entry) (s : State) : Local s (giveVerdict p e s) := by
  unfold giveVerdict
  repeat' split
  · exact .refl s
  · exact (recordVerdict_local ..).trans (leaveRunning_local ..)
  · exact .refl s

/-! ### Timer, monitor, step state -/

theorem startTimer_local (u : TimerUse) (c : TimerClock) (d m : Nat) (s : State) :
    Local s (startTimer u c d m s) := .of_eq rfl rfl rfl rfl rfl rfl rfl rfl rfl rfl rfl rfl rfl

theorem stopTimer_local (s : State) : Local s (stopTimer s) :=
  .of_eq rfl rfl rfl rfl rfl rfl rfl rfl rfl rfl rfl rfl rfl

theorem setMonitor_local (m : Monitor) (s : State) : Local s (setMonitor m s) :=
  .of_eq rfl rfl rfl rfl rfl rfl rfl rfl rfl rfl rfl rfl rfl

theorem setStepState_local (x : StepState) (s : State) : Local s (setStepState x s) := psc_local ..

theorem raiseExpiry_local (s : State) : Local s (raiseExpiry s) :=
  .of_eq rfl rfl rfl rfl rfl rfl rfl rfl rfl rfl rfl rfl rfl

/-! ### Phases of a step -/

theorem createGates_local (s : State) : Local s (createGates s) :=
  .forEach (fun _ _ => setGate_local (by rintro _ c ⟨⟩; exact Nat.zero_le _)) s

theorem createWindows_local (w : Bool) (s : State) : Local s (createWindows w s) :=
  .forEach (fun _ _ => setWindow_local ..) s

theorem startWindow_local (r : StepRecord) (s : State) : Local s (startWindow r s) := startTimer_local ..

theorem keepWindowStart_local (s : State) : Local s (keepWindowStart s) := psc_local ..

theorem beginWork_local (r : StepRecord) (k : StepKind) (s : State) : Local s (beginWork r k s) := by
  cases k
  · exact ((psc_local ..).trans (setMonitor_local ..)).trans (createGates_local ..)
  · exact ((startWindow_local ..).trans (keepWindowStart_local ..)).trans (createWindows_local ..)
  · exact ((startWindow_local ..).trans (keepWindowStart_local ..)).trans (createWindows_local ..)
  · exact (startWindow_local ..).trans (setMonitor_local ..)

theorem enterRunning_local (s : State) : Local s (enterRunning s) := by
  unfold enterRunning
  repeat' split
  · exact .refl s
  · exact .refl s
  · exact ((setStepState_local ..).trans (recordStepEvent_local ..)).trans (beginWork_local ..)

theorem enterSettling_local (s : State) : Local s (enterSettling s) := by
  unfold enterSettling
  split
  · exact .refl s
  · refine .of_ite (fun _ => ?_) (fun _ => ?_)
    · exact ((setStepState_local ..).trans (startTimer_local ..)).trans (enterRunning_local ..)
    · exact (setStepState_local ..).trans (startTimer_local ..)

theorem enterArmed_local (s : State) : Local s (enterArmed s) := by
  unfold enterArmed
  split
  · exact .refl s
  · refine .of_ite (fun _ => ?_) (fun _ => ?_)
    · exact ((setStepState_local ..).trans (recordStepEvent_local ..)).trans (enterSettling_local ..)
    · exact (setStepState_local ..).trans (recordStepEvent_local ..)

theorem takeTrigger_local (x : Trigger) (s : State) : Local s (takeTrigger x s) := by
  unfold takeTrigger
  split
  · exact .refl s
  · exact .of_ite (fun _ => (enterSettling_local s).trans (buildDue_local _)) (fun _ => .refl s)

theorem enterReadBefore_local (s : State) : Local s (enterReadBefore s) :=
  (setStepState_local ..).trans (.forEach (fun _ _ => (setReg_local ..).trans (placeRead_local ..)) _)

theorem ownSecondRead_local (p : Pos) (s : State) : Local s (ownSecondRead p s) := by
  unfold ownSecondRead
  split
  · exact .refl s
  · exact (setReg_local ..).trans (placeRead_local ..)

theorem enterReadAfter_local (s : State) : Local s (enterReadAfter s) :=
  (psc_local ..).trans (.forEach ownSecondRead_local _)

theorem enterSettleAfter_local (r : StepRecord) (s : State) : Local s (enterSettleAfter r s) := by
  have h := (((setStepState_local .settleAfter s).trans (recordStepEvent_local .windowEnd _)).trans
    (setMonitor_local .disarmed _)).trans (startTimer_local .settle .ms 1 r.settle.toNat _)
  exact .of_ite (fun _ => h.trans (enterReadAfter_local ..)) (fun _ => h)

/-! ### End and start of a step -/

theorem clearWork_local (s : State) : Local s (clearWork s) where
  strap := rfl
  rules := rfl
  pending := rfl
  srs := rfl
  trimLimit := rfl
  gateReports := rfl
  profile := rfl
  identify := rfl
  registerRead := rfl
  micros := rfl
  millis := rfl
  link := rfl
  sound := by
    rintro ⟨hc, hl, -⟩
    refine ⟨hc, hl, fun q c hq => ?_⟩
    simp [clearWork, State.gate] at hq
  filters := id

theorem retireStep_local (x : StepState) (s : State) : Local s (retireStep x s) := psc_local ..

theorem finishStep_local (s : State) : Local s (finishStep s) :=
  ((((stopTimer_local s).trans (setMonitor_local ..)).trans (clearWork_local ..)).trans
    (retireStep_local ..)).trans (recordStepEvent_local ..)

theorem startStep_local (r : StepRef) (s : State) : Local s (startStep r s) := by
  have h : Local s { s with psc := { s.psc with active := some r, running := s.eligibleSet } } := psc_local ..
  unfold startStep
  refine .of_ite (fun _ => h.trans (finishStep_local _)) (fun _ => ?_)
  split
  · exact h.trans (finishStep_local _)
  · exact h.trans (enterReadBefore_local _)
  · exact h.trans (enterArmed_local _)

theorem completeStep_local (s : State) : Local s (completeStep s) := by
  unfold completeStep
  split
  · exact finishStep_local s
  · exact ((psc_local ..).trans (finishStep_local ..)).trans (startStep_local ..)

theorem completeIfEmpty_local (s : State) : Local s (completeIfEmpty s) :=
  .of_ite (fun _ => completeStep_local s) (fun _ => .refl s)

theorem armIfRead_local (s : State) : Local s (armIfRead s) :=
  .of_ite (fun _ => (Local.forEach (fun _ _ => setRead_local ..) s).trans (enterArmed_local ..))
    (fun _ => .refl s)

theorem afterVerdict_local (s : State) : Local s (afterVerdict s) :=
  (completeIfEmpty_local s).trans (armIfRead_local _)

/-! ### Register reads -/

theorem holdReading_local (p : Pos) (x : ReadState) (a b : Option Nat) (s : State) :
    Local s (holdReading p x a b s) := setReg_local ..

theorem registerVerdictActs_local (p : Pos) (e : Entry) (c : RegContext) (s : State) :
    Local s (registerVerdictActs p e c s) :=
  ((holdReading_local ..).trans (giveVerdict_local ..)).trans (afterVerdict_local ..)

theorem readingTaken_local (p : Pos) (v : Nat) (c : RegContext) (s : State) :
    Local s (readingTaken p v c s) := by
  unfold readingTaken
  split
  · exact (holdReading_local ..).trans (armIfRead_local ..)
  · exact registerVerdictActs_local ..
  · exact .refl s

theorem readingFailed_local (p : Pos) (v : Verdict) (c : RegContext) (s : State) :
    Local s (readingFailed p v c s) :=
  .of_ite (fun _ => registerVerdictActs_local ..) (fun _ => .refl s)

theorem readOutcome_local (p : Pos) (o : Verdict ⊕ Nat) (s : State) : Local s (readOutcome p o s) := by
  unfold readOutcome
  split
  · exact .refl s
  · refine .of_ite (fun _ => ?_) (fun _ => .refl s)
    split
    · exact readingFailed_local ..
    · exact readingTaken_local ..

theorem emptyOutcome_local (p : Pos) (q : TemplateRequest) (s : State) : Local s (emptyOutcome p q s) := by
  cases q
  · exact identifyOutcome_local ..
  · exact readOutcome_local p (.inl .badReading) s

theorem endEmpty_local (p : Pos) (q : TemplateRequest) (s : State) : Local s (endEmpty p q s) :=
  ((((setChan_local ..).trans (startedRead_local ..)).trans (placeOwed_local ..)).trans
    (emptyOutcome_local ..)).trans (tryStart_local ..)

theorem endOneEmpty_local (s : State) : Local s (endOneEmpty s) := by
  unfold endOneEmpty
  repeat' split
  · exact .refl s
  · exact .refl s
  · exact endEmpty_local ..

theorem quiesce_local (s : State) : Local s (quiesce s) := by
  have h : ∀ (l : List Nat) (s : State), Local s (l.foldl (fun t _ => endOneEmpty t) s) := by
    intro l
    induction l with
    | nil => exact Local.refl
    | cons _ l ih => exact fun s => (endOneEmpty_local s).trans (ih _)
  exact h _ s

/-- The end of an event is local. -/
theorem settle_local (s : State) : Local s (settle s) := (quiesce_local s).trans (buildDue_local _)

/-! ### Abort and exclusion -/

theorem abortStep_local (s : State) : Local s (abortStep s) := by
  refine .of_ite (fun _ => ?_) (fun _ => .refl s)
  exact ((((((Local.forEach (fun _ _ => giveVerdict_local ..) s).trans
    (.forEach endRead_local _)).trans (stopTimer_local _)).trans (setMonitor_local _ _)).trans
      (clearWork_local _)).trans (retireStep_local _ _)).trans (recordStepEvent_local _ _)

theorem startChannels_local (s : State) : Local s (startChannels s) := .forEach tryStart_local s

theorem abortFirst_local (s : State) : Local s (abortFirst s) :=
  .of_ite (fun _ => ((abortStep_local s).trans (startChannels_local _)).trans (quiesce_local _)) (fun _ => .refl s)

theorem dropWork_local (p : Pos) (s : State) : Local s (dropWork p s) := by
  have h : Local s (if s.readingPhase && (s.reg p).isSome then endRead p s else s) :=
    .of_ite (fun _ => endRead_local p s) (fun _ => .refl s)
  exact ((h.trans (setGate_local (by rintro _ c ⟨⟩))).trans (setWindow_local ..)).trans (setReg_local ..)

theorem exclude_local (p : Pos) (s : State) : Local s (exclude p s) :=
  .of_ite (fun _ => (((((giveVerdict_local p _ s).trans (dropWork_local p _)).trans
    (tryStart_local p _)).trans (quiesce_local _)).trans (afterVerdict_local _)).trans (quiesce_local _))
    (fun _ => .refl s)

/-! ### Expiries -/

theorem takeExpiry_local (u : TimerUse) (s : State) : Local s (takeExpiry u s).2 := by
  unfold takeExpiry
  repeat' split
  · exact psc_local ..
  · exact psc_local ..
  · exact .of_eq rfl rfl rfl rfl rfl rfl rfl rfl rfl rfl rfl rfl rfl
  · exact .refl s

theorem triggerDelayExpiry_local (s : State) : Local s (triggerDelayExpiry s) := by
  have h := takeExpiry_local .triggerDelay s
  unfold triggerDelayExpiry
  generalize takeExpiry .triggerDelay s = t at h ⊢
  exact .of_ite (fun _ => (h.trans (enterRunning_local _)).trans (buildDue_local _)) (fun _ => h)

theorem windowEndVerdict_local (p : Pos) (s : State) : Local s (windowEndVerdict p s) := by
  unfold windowEndVerdict
  split
  · exact giveVerdict_local ..
  · exact giveVerdict_local ..
  · exact .refl s

theorem windowEndActs_local (s : State) : Local s (windowEndActs s) := by
  unfold windowEndActs
  repeat' split
  · exact .refl s
  · exact enterSettleAfter_local ..
  · exact (Local.forEach windowEndVerdict_local s).trans (completeIfEmpty_local _)

theorem windowEnd_local (s : State) : Local s (windowEnd s) := by
  have h := takeExpiry_local .window s
  unfold windowEnd
  generalize takeExpiry .window s = t at h ⊢
  exact .of_ite (fun _ => (h.trans (windowEndActs_local _)).trans (settle_local _)) (fun _ => h)

theorem settleExpiry_local (s : State) : Local s (settleExpiry s) := by
  have h := takeExpiry_local .settle s
  unfold settleExpiry
  generalize takeExpiry .settle s = t at h ⊢
  exact .of_ite (fun _ => (h.trans (enterReadAfter_local _)).trans (settle_local _)) (fun _ => h)

theorem refLostActs_local (s : State) : Local s (refLostActs s) :=
  .of_ite (fun _ => (((Local.forEach (fun _ _ => giveVerdict_local ..) s).trans
    (stopTimer_local _)).trans (completeIfEmpty_local _)).trans (quiesce_local _)) (fun _ => .refl s)

/-! ### Step commands -/

theorem emptyQueue_local (s : State) : Local s (emptyQueue s) := psc_local ..

theorem setPlan_local (n : Fin 32) (r : Option StepRecord) (s : State) : Local s (setPlan n r s) :=
  psc_local ..

theorem stepRunActs_local (b : Byte) (run : Word32) (s : State) : Local s (stepRunActs b run s).1 := by
  unfold stepRunActs
  split
  · exact .refl s
  · rw [accept_fst]
    exact (((abortFirst_local s).trans (emptyQueue_local _)).trans (startStep_local _ _)).trans (settle_local _)

theorem stepQueueActs_local (b : Byte) (run : Word32) (s : State) : Local s (stepQueueActs b run s).1 := by
  unfold stepQueueActs
  repeat' split
  · exact .refl s
  · exact psc_local ..
  · rw [accept_fst]
    exact (startStep_local _ _).trans (settle_local _)

theorem stepAbortActs_local (s : State) : Local s (stepAbortActs s).1 := by
  unfold stepAbortActs
  repeat' split
  · rw [accept_fst]
    exact ((abortFirst_local s).trans (emptyQueue_local _)).trans (buildDue_local _)
  · exact setStepState_local ..
  · exact .refl s

theorem planWriteActs_local (b : Byte) (r : StepRecord) (s : State) : Local s (planWriteActs b r s).1 := by
  unfold planWriteActs
  repeat' split
  all_goals first
    | exact .refl s
    | exact setPlan_local ..

theorem planReadActs_local (b : Byte) (s : State) : Local s (planReadActs b s).1 := by
  unfold planReadActs
  split <;> exact .refl s

theorem planClearActs_local (b : Byte) (s : State) : Local s (planClearActs b s).1 := by
  unfold planClearActs
  repeat' split
  all_goals first
    | exact .refl s
    | exact setPlan_local ..

/-! ### Gates and windows -/

theorem clearTally_local (p : Pos) (s : State) : Local s (clearTally p s) :=
  setLine_local (fun _ => Nat.zero_le _)

theorem openGate_local (p : Pos) (r : StepRecord) (g : GateContext) (s : State) : Local s (openGate p r g s) :=
  (setGate_local (by rintro _ c ⟨⟩; exact Nat.zero_le _)).trans (clearTally_local ..)

theorem replaceGateResult_local (p : Pos) (x : GateResult) (s : State) :
    Local s (replaceGateResult p x s) := by
  unfold replaceGateResult
  exact Local.trans (setPos_local (fun h => correctionFits_congr (by rfl) (by rfl) h)) (markGateResult_local p _)

theorem endGates_local (p : Pos) (v : Verdict) (g : GateContext) (s : State)
    (h : Sound s → g.m ≤ 4294967295) : Local s (endGates p v g s) :=
  ((setGate_local (by rintro hs c ⟨⟩; exact h hs)).trans (giveVerdict_local ..)).trans (afterVerdict_local _)

theorem applyOutcome_m (o : GateOutcome) (e : Option (Int × Bool)) (g : GateContext) :
    (g.applyOutcome o e).m = g.m := by
  unfold GateContext.applyOutcome GateContext.acceptGate
  split <;> rfl

theorem replaceGateResult_gate (p : Pos) (x : GateResult) (s : State) (q : Pos) :
    (replaceGateResult p x s).gate q = s.gate q := by
  unfold replaceGateResult markGateResult
  split <;> rfl

theorem closeGate_local {p : Pos} {r : StepRecord} {l : GateLatch} {g : GateContext} {s : State}
    (h : ∃ c, s.gate p = some c ∧ g.m = c.m) : Local s (closeGate p r l g s) := by
  obtain ⟨c, hc, hm⟩ := h
  have k := replaceGateResult_local p
    (gateResultOf (closeOutcome r (s.line p).tally g) l (closeError l g) (s.line p).tally g) s
  unfold closeGate
  dsimp only
  split
  · exact k.trans (openGate_local ..)
  · refine k.trans (endGates_local _ _ _ _ (fun hs => ?_))
    rw [applyOutcome_m, hm]
    exact hs.2.2 p c (by rw [replaceGateResult_gate, hc])

theorem countGate_local {p : Pos} {r : StepRecord} {g : GateContext} {s : State} (h : s.gate p = some g) :
    Local s (countGate p r g s) := by
  unfold countGate
  split
  · exact .refl s
  · exact .of_ite (fun _ => closeGate_local ⟨g, h, rfl⟩)
      (fun _ => setGate_local (by rintro hs c ⟨⟩; exact hs.2.2 p g h))

theorem gateEdge_local {p : Pos} {g : GateContext} {s : State} (h : s.gate p = some g) :
    Local s (gateEdge p g s) := by
  unfold gateEdge
  repeat' split
  · exact .refl s
  · exact openGate_local ..
  · exact countGate_local h
  · exact .refl s

theorem decideWindow_local (p : Pos) (w : WindowRecord) (e : Entry) (s : State) :
    Local s (decideWindow p w e s) :=
  ((setWindow_local ..).trans (giveVerdict_local ..)).trans (completeIfEmpty_local _)

theorem creepEdge_local (p : Pos) (r : StepRecord) (w : WindowRecord) (s : State) :
    Local s (creepEdge p r w s) :=
  .of_ite (fun _ => decideWindow_local ..) (fun _ => setWindow_local ..)

theorem startEdge_local (p : Pos) (w : WindowRecord) (s : State) : Local s (startEdge p w s) :=
  decideWindow_local ..

theorem windowEdge_local (p : Pos) (w : WindowRecord) (s : State) : Local s (windowEdge p w s) := by
  refine .of_ite (fun _ => .refl s) (fun _ => ?_)
  repeat' split
  · exact .refl s
  · exact creepEdge_local ..
  · exact startEdge_local ..
  · exact .refl s

theorem handEdge_local (p : Pos) (s : State) : Local s (handEdge p s) := by
  unfold handEdge
  split
  · exact gateEdge_local ‹_›
  · exact windowEdge_local ..
  · exact .refl s

theorem takeCandidate_local (p : Pos) (s : State) : Local s (takeCandidate p s) := by
  unfold takeCandidate
  split
  · exact setLine_local (fun _ => Nat.min_le_right _ _)
  · refine Local.trans (Local.trans (setLine_local ?_) (handEdge_local p _)) (settle_local _)
    exact fun h => h

theorem gateTimeout_local (p : Pos) (s : State) : Local s (gateTimeout p s) := by
  unfold gateTimeout
  split
  · exact .refl s
  · exact .of_ite (fun _ => .refl s)
      (fun _ => (endGates_local p _ _ s (fun hs => hs.2.2 p _ ‹_›)).trans (settle_local _))

/-! ### Lines, reference, control lines -/

theorem shift_tally (f v : Bool) (l : Line) : (l.shift f v).tally = l.tally := rfl

theorem settle_tally (f v : Bool) (l : Line) : (l.settle f v).tally = l.tally := by
  unfold Line.settle
  repeat' split
  all_goals rfl

theorem transition_tally (set : LineSettings) (v : Bool) (l : Line) :
    (l.transition set v).tally = l.tally := by
  simp [Line.transition, settle_tally]

/-- A new sample gives the filtered value that fits it (R2). -/
theorem shift_fits (set : LineSettings) (v : Bool) (l : Line) : filterFits set (l.shift set.filterOn v) := by
  simp only [filterFits, Line.shift]
  generalize set.filterOn = f
  generalize l.middle = a
  generalize l.newest = b
  revert f a b v
  decide

theorem settle_fits {set : LineSettings} {l : Line} (v : Bool) (h : filterFits set l) :
    filterFits set (l.settle set.filterOn v) := by
  unfold Line.settle
  repeat' split
  · exact h
  all_goals exact shift_fits ..

theorem transition_fits {set : LineSettings} {l : Line} (v : Bool) (h : filterFits set l) :
    filterFits set (l.transition set v) := settle_fits v (settle_fits (!v) h)

/-- A reloaded line holds three copies of its sample (R3). -/
theorem loaded_fits (set : LineSettings) (level v : Bool) : filterFits set (Line.loaded level v) := by
  simp only [filterFits, Line.loaded]
  generalize set.filterOn = f
  revert f v
  decide

theorem candidateEdge_local (p : Pos) (s : State) : Local s (candidateEdge p s) :=
  (setLine_local (fun h => by rwa [transition_tally]) (transition_fits _)).trans (takeCandidate_local p _)

theorem unselectedTransition_local (p : Pos) (s : State) : Local s (unselectedTransition p s) := by
  unfold unselectedTransition
  dsimp only
  split
  · exact .refl s
  · exact setLine_local (fun h => by rwa [transition_tally]) (transition_fits _)

theorem sampleLine_local (p : Pos) (s : State) : Local s (sampleLine p s) :=
  .of_ite (fun _ => (setLine_local (l := (s.line p).shift (s.pos p).line.filterOn
      ((s.line p).level ^^ (s.pos p).line.inverted)) id (fun _ => shift_fits ..)).trans (takeCandidate_local p _))
    (fun _ => setLine_local id (fun _ => shift_fits ..))

theorem reloadLine_local (p : Pos) (s : State) : Local s (reloadLine p s) :=
  setLine_local (fun _ => Nat.zero_le _) (fun _ => loaded_fits ..)

/-- A record with other line settings, and its line reloaded by them (R3). -/
theorem reloadSetPos_local {s : State} {p : Pos} {r : PositionRecord} (h : correctionFits r) :
    Local s (reloadLine p (s.setPos p r)) where
  strap := rfl
  rules := rfl
  pending := rfl
  srs := rfl
  trimLimit := rfl
  gateReports := rfl
  profile := rfl
  identify := rfl
  registerRead := rfl
  micros := rfl
  millis := rfl
  link := rfl
  sound := by
    rintro ⟨hc, hl, hg⟩
    refine ⟨fun q => ?_, fun q => ?_, hg⟩ <;> unfold reloadLine
    · rw [State.setLine_pos, State.setPos_pos]
      split
      · exact h
      · exact hc q
    · rw [State.setLine_line]
      split
      · exact Nat.zero_le _
      · exact hl q
  filters := by
    intro hf q
    unfold reloadLine
    rw [State.setLine_pos, State.setLine_line]
    split
    · exact loaded_fits ..
    · rename_i e
      rw [State.setPos_pos, if_neg e]
      exact hf q

theorem countRef_m (g : GateContext) (h : g.m ≤ 4294967295) : g.countRef.m ≤ 4294967295 := by
  unfold GateContext.countRef
  repeat' split
  · exact Nat.succ_le_of_lt ‹_›
  · exact h
  · exact h

theorem countInGates_local (s : State) : Local s (countInGates s) where
  strap := rfl
  rules := rfl
  pending := rfl
  srs := rfl
  trimLimit := rfl
  gateReports := rfl
  profile := rfl
  identify := rfl
  registerRead := rfl
  micros := rfl
  millis := rfl
  link := rfl
  sound := by
    rintro ⟨hc, hl, hg⟩
    refine ⟨hc, hl, fun q c hq => ?_⟩
    simp only [countInGates, State.gate, atPos_map, Option.map_eq_some_iff] at hq
    obtain ⟨g, hq, rfl⟩ := hq
    exact countRef_m g (hg q g hq)
  filters := id

theorem advanceTimer_local (s : State) : Local s (advanceTimer s) :=
  .of_ite (fun _ => .of_eq rfl rfl rfl rfl rfl rfl rfl rfl rfl rfl rfl rfl rfl) (fun _ => raiseExpiry_local s)

theorem countInTimer_local (s : State) : Local s (countInTimer s) :=
  .of_ite (fun _ => .of_ite (fun _ => .of_eq rfl rfl rfl rfl rfl rfl rfl rfl rfl rfl rfl rfl rfl)
    (fun _ => advanceTimer_local s)) (fun _ => .refl s)

theorem countInMonitor_local (s : State) : Local s (countInMonitor s) := by
  unfold countInMonitor
  split
  · exact .refl s
  · exact setMonitor_local ..

theorem countReference_local (s : State) : Local s (countReference s) :=
  ((countInGates_local s).trans (countInTimer_local _)).trans (countInMonitor_local _)

theorem referenceEdge_local (e : RefEdge) (n : Nat) (s : State) : Local s (referenceEdge e n s) :=
  .of_ite (fun _ => countReference_local s) (fun _ => .refl s)

theorem refLost_local (s : State) : Local s (refLost s) := by
  unfold refLost
  split
  · exact .refl s
  · exact (((setMonitor_local ..).trans (markRefLost_local _)).trans (refLostActs_local _)).trans (buildDue_local _)

theorem setSync_local (v : Bool) (s : State) : Local s (setSync v s) :=
  .of_eq rfl rfl rfl rfl rfl rfl rfl rfl rfl rfl rfl rfl rfl

theorem setSource_local (v : Bool) (s : State) : Local s (setSource v s) :=
  .of_eq rfl rfl rfl rfl rfl rfl rfl rfl rfl rfl rfl rfl rfl

theorem syncEdge_local (s : State) : Local s (syncEdge s) :=
  .of_ite (fun _ => .refl s) (fun _ => (setSync_local true s).trans (takeTrigger_local _ _))

theorem sourceReadyAssertion_local (s : State) : Local s (sourceReadyAssertion s) :=
  .of_ite (fun _ => .refl s) (fun _ => (setSource_local true s).trans (takeTrigger_local _ _))

/-! ### Positions -/

theorem loadPosition_local (p : Pos) (set : LineSettings) (r : LoadRecord) (s : State) :
    Local s (loadPosition p set r s) := by
  refine .of_ite (fun _ => ?_) (fun _ => ?_)
  · exact (reloadSetPos_local (r := loadedFresh set r) (correctionFits_none rfl)).trans (setIdentified_local _ p none)
  · exact reloadSetPos_local (correctionFits_none rfl)

theorem setIncluded_local (p : Pos) (b : Bool) (s : State) : Local s (setIncluded p b s) :=
  setPos_local (correctionFits_congr rfl rfl)

theorem cutIdentify_local (p : Pos) (s : State) : Local s (cutIdentify p s) := setChan_local ..

theorem abortIdentify_local (p : Pos) (s : State) : Local s (abortIdentify p s) :=
  .of_ite (fun _ => (cutIdentify_local p s).trans (identifyOutcome_local ..)) (fun _ => .refl s)

theorem clearPosition_local (p : Pos) (s : State) : Local s (clearPosition p s) :=
  (((((setIncluded_local p false s).trans (exclude_local p _)).trans (abortIdentify_local p _)).trans
    (reloadSetPos_local (correctionFits_none rfl))).trans (tryStart_local p _)).trans (settle_local _)

theorem excludePosition_local (p : Pos) (s : State) : Local s (excludePosition p s) :=
  .of_ite (fun _ => ((setIncluded_local p false s).trans (exclude_local p _)).trans (buildDue_local _))
    (fun _ => setIncluded_local ..)

theorem positionLoadActs_local (r : LoadRecord) (s : State) : Local s (positionLoadActs r s).1 := by
  unfold positionLoadActs
  repeat' split
  all_goals first
    | exact .refl s
    | exact loadPosition_local ..

theorem positionClearActs_local (b : Byte) (s : State) : Local s (positionClearActs b s).1 := by
  unfold positionClearActs
  repeat' split
  · exact .refl s
  · exact .refl s
  · exact .refl s
  · rw [acceptRecord_fst]
    exact clearPosition_local ..

theorem includeOnActs_local (b : Byte) (s : State) : Local s (includeOnActs b s).1 := by
  unfold includeOnActs
  repeat' split
  all_goals first
    | exact .refl s
    | exact setIncluded_local ..

theorem includeOffActs_local (b : Byte) (s : State) : Local s (includeOffActs b s).1 := by
  unfold includeOffActs
  repeat' split
  · exact .refl s
  · exact .refl s
  · rw [acceptRecord_fst]
    exact excludePosition_local ..

theorem positionReadActs_local (b : Byte) (s : State) : Local s (positionReadActs b s).1 := by
  unfold positionReadActs
  split <;> exact .refl s

theorem resultReadActs_local (b n : Byte) (s : State) : Local s (resultReadActs b n s).1 := by
  unfold resultReadActs
  split <;> exact .refl s

/-! ### Corrections and verification -/

theorem computeCorrection_fits (c : CorrectionSteps) (r : PositionRecord) (h : correctionFits r) :
    correctionFits (computeCorrection c r) := by
  unfold computeCorrection
  split
  · exact h
  · rename_i m hm
    split
    · unfold correctedRecord
      split
      · exact correctionFits_none rfl
      · split
        · rename_i hfit
          rintro x ⟨⟩
          simp only [targetsFit, Bool.and_eq_true] at hfit
          refine ⟨m, hm, hfit.1, fun w hw => ?_⟩
          have hb := hfit.2
          simp only at hw
          rw [hw] at hb
          exact hb
        · exact correctionFits_none rfl
    · exact h

theorem evaluatePosition_fits (l : List (Fin 32)) (r : PositionRecord) (h : correctionFits r) :
    correctionFits (evaluatePosition l r) := by
  unfold evaluatePosition
  split
  · exact correctionFits_none rfl
  · exact h

theorem computeCorrection_line (c : CorrectionSteps) (r : PositionRecord) : (computeCorrection c r).line = r.line := by
  unfold computeCorrection correctedRecord
  repeat' split
  all_goals rfl

theorem evaluatePosition_line (l : List (Fin 32)) (r : PositionRecord) : (evaluatePosition l r).line = r.line := by
  unfold evaluatePosition
  split <;> rfl

theorem correctionComputeActs_local (m : Word16) (a : Byte) (b : Option Byte) (s : State) :
    Local s (correctionComputeActs m a b s).1 := by
  unfold correctionComputeActs
  repeat' split
  · exact .refl s
  · exact .refl s
  · exact Local.forEach (fun _ _ => setPos_local (computeCorrection_fits _ _) (computeCorrection_line _ _)) s

theorem verifyEvaluateActs_local (m : Word16) (l : List Byte) (s : State) :
    Local s (verifyEvaluateActs m l s).1 := by
  unfold verifyEvaluateActs
  split
  · exact .refl s
  · exact Local.forEach (fun _ _ => setPos_local (evaluatePosition_fits _ _) (evaluatePosition_line _ _)) s

/-! ### Port channels -/

theorem templateEnds_local (p : Pos) {f : State → State} (h : ∀ s, Local s (f s)) (s : State) :
    Local s (templateEnds p f s) :=
  (((setChan_local ..).trans (h _)).trans (tryStart_local p _)).trans (settle_local _)

theorem freeChannel_local (p : Pos) (s : State) : Local s (freeChannel p s) :=
  ((setChan_local ..).trans (tryStart_local p _)).trans (settle_local _)

theorem identifyReply_local (p : Pos) (x : Option (List Byte)) (s : State) :
    Local s (identifyReply p x s) := by
  unfold identifyReply
  split <;> exact identifyOutcome_local ..

theorem readReply_local (p : Pos) (x : Option Nat) (s : State) : Local s (readReply p x s) := by
  unfold readReply
  split <;> exact readOutcome_local ..

theorem firstStartBit_local (p : Pos) (s : State) : Local s (firstStartBit p s) := by
  unfold firstStartBit
  split
  · exact setChan_local ..
  · exact .refl s

theorem transactionStart_local (p : Pos) (s : State) : Local s (transactionStart p s) :=
  (tryStart_local p s).trans (settle_local _)

theorem identifyActs_local (m : Word16) (s : State) : Local s (identifyActs m s).1 := by
  unfold identifyActs
  split
  · exact .refl s
  · rw [accept_fst]
    exact (Local.forEach (fun _ _ => placeTemplate_local ..) s).trans (settle_local _)

/-- A record keeps its fit through the end of a trim. -/
theorem trimEnds_fits (o : PortOutcome) (g : Int) (f : Option Int) (r : PositionRecord)
    (h : correctionFits r) : correctionFits (r.trimEnds o g f) := by
  unfold PositionRecord.trimEnds
  split
  · exact correctionFits_none rfl
  · exact correctionFits_congr rfl rfl h

theorem trimEnds_line (o : PortOutcome) (g : Int) (f : Option Int) (r : PositionRecord) :
    (r.trimEnds o g f).line = r.line := by
  unfold PositionRecord.trimEnds
  split <;> rfl

theorem startWrite_local (p : Pos) (w : WriteInFlight) (s : State) : Local s (startWrite p w s) :=
  setPos_local (correctionFits_congr rfl rfl)

end Sys2Proof.Machine
end

