-- ==== Sys2Proof/Laws/PerInstr.lean ====
section
/-! SUPPORT. What holds of every command as syntax, constructor by constructor: the cell that carries it has room for
its payload, and its kind is one of the command kinds (11.6, 11.7). -/

namespace Sys2Proof.Laws.Fields

/-- A well-formed command that a cell carries has at most 250 payload bytes, and a kind of 01h to 4Bh. -/
def Statement (i : Instr) : Prop :=
  i.wf = true → ∀ x, encodeCommand i = some x → x.2.2.length ≤ 250 ∧ 1 ≤ x.1.toNat ∧ x.1.toNat ≤ 0x4B

/-- A command that no cell carries under an address. -/
theorem of_none {i : Instr} (h : encodeCommand i = none) : Statement i := by
  intro _ x hx; rw [h] at hx; cases hx

/-- A command with its cell. -/
theorem of_some {i : Instr} {k t : Byte} {l : List Byte} (h : encodeCommand i = some (k, t, l))
    (hk : 1 ≤ k.toNat ∧ k.toNat ≤ 0x4B) (hl : i.wf = true → l.length ≤ 250) : Statement i := by
  intro hw x hx; rw [h] at hx; cases hx; exact ⟨hl hw, hk⟩

theorem powerOn (cut : FlashCut) : Statement (.powerOn cut) :=
  of_none rfl

theorem fullResetAct : Statement .fullResetAct :=
  of_none rfl

theorem scanDone : Statement .scanDone :=
  of_none rfl

theorem candidateEdge (p : Pos) : Statement (.candidateEdge p) :=
  of_none rfl

theorem referenceEdge (edge : RefEdge) (gapNs : Nat) : Statement (.referenceEdge edge gapNs) :=
  of_none rfl

theorem refLost : Statement .refLost :=
  of_none rfl

theorem syncEdge : Statement .syncEdge :=
  of_none rfl

theorem sourceReadyAssertion : Statement .sourceReadyAssertion :=
  of_none rfl

theorem triggerDelayExpiry : Statement .triggerDelayExpiry :=
  of_none rfl

theorem windowEnd : Statement .windowEnd :=
  of_none rfl

theorem settleExpiry : Statement .settleExpiry :=
  of_none rfl

theorem gateTimeout (p : Pos) : Statement (.gateTimeout p) :=
  of_none rfl

theorem transactionStart (p : Pos) : Statement (.transactionStart p) :=
  of_none rfl

theorem sendingEnd (p : Pos) : Statement (.sendingEnd p) :=
  of_none rfl

theorem firstStartBit (p : Pos) : Statement (.firstStartBit p) :=
  of_none rfl

theorem replyTimeout (p : Pos) : Statement (.replyTimeout p) :=
  of_none rfl

theorem replyEnd (p : Pos) (chars : List RxChar) : Statement (.replyEnd p chars) :=
  of_none rfl

theorem heldAnswerTaken : Statement .heldAnswerTaken :=
  of_none rfl

theorem jobStart : Statement .jobStart :=
  of_none rfl

theorem headerJobEnd (ok : Bool) : Statement (.headerJobEnd ok) :=
  of_none rfl

theorem bodyJobEnd (ok : Bool) : Statement (.bodyJobEnd ok) :=
  of_none rfl

theorem fullRecordJobEnd (ok : Bool) : Statement (.fullRecordJobEnd ok) :=
  of_none rfl

theorem collectJobEnd (failed : List Nat) : Statement (.collectJobEnd failed) :=
  of_none rfl

theorem eraseJobEnd (ok : Bool) : Statement (.eraseJobEnd ok) :=
  of_none rfl

theorem upCellReceived (chars : List Byte) : Statement (.upCellReceived chars) :=
  of_none rfl

theorem downCellReceived (chars : List Byte) : Statement (.downCellReceived chars) :=
  of_none rfl

theorem downForwardSend : Statement .downForwardSend :=
  of_none rfl

theorem upCellBoundary : Statement .upCellBoundary :=
  of_none rfl

theorem reportBuild : Statement .reportBuild :=
  of_none rfl

theorem unknownKind (tag : Byte) : Statement (.unknownKind tag) :=
  of_none rfl

theorem statusRead (tag : Byte) : Statement (.statusRead tag) :=
  of_some rfl (by decide) (fun _ => by simp)

theorem settingsWrite (tag : Byte) (limit : Byte) (reports : Byte) : Statement (.settingsWrite tag limit reports) :=
  of_some rfl (by decide) (fun _ => by simp)

theorem settingsRead (tag : Byte) : Statement (.settingsRead tag) :=
  of_some rfl (by decide) (fun _ => by simp)

theorem moduleResetRun (via : Via) : Statement (.moduleResetRun via) := by
  cases via
  · exact of_some rfl (by decide) (fun _ => by simp)
  · exact of_none rfl

theorem moduleResetFull (tag : Byte) : Statement (.moduleResetFull tag) :=
  of_some rfl (by decide) (fun _ => by simp)

theorem profileWrite (tag : Byte) (r : ProfileRecord) : Statement (.profileWrite tag r) :=
  of_some rfl (by decide) (fun _ => by simp [ProfileRecord.payload, bytes16])

theorem profileRead (tag : Byte) : Statement (.profileRead tag) :=
  of_some rfl (by decide) (fun _ => by simp)

theorem templateWrite (tag : Byte) (which : Byte) (r : TemplateRecord) : Statement (.templateWrite tag which r) :=
  of_some rfl (by decide) (fun h => by
    simp [Instr.wf, TemplateRecord.fits] at h
    simp [TemplateRecord.payload, bytes16]; omega)

theorem templateRead (tag : Byte) (which : Byte) : Statement (.templateRead tag which) :=
  of_some rfl (by decide) (fun _ => by simp)

theorem identify (tag : Byte) (mask : Word16) : Statement (.identify tag mask) :=
  of_some rfl (by decide) (fun _ => by simp [bytes16])

theorem ruleWrite (tag : Byte) (index : Byte) (r : RuleRecord) : Statement (.ruleWrite tag index r) :=
  of_some rfl (by decide) (fun _ => by simp [RuleRecord.payload, PatchRecord.payload, bytes16])

theorem ruleRead (tag : Byte) (index : Byte) : Statement (.ruleRead tag index) :=
  of_some rfl (by decide) (fun _ => by simp)

theorem planWrite (tag : Byte) (slot : Byte) (r : StepRecord) : Statement (.planWrite tag slot r) :=
  of_some rfl (by decide) (fun _ => by simp [StepRecord.payload, bytes16, bytes24, bytes32])

theorem planRead (tag : Byte) (slot : Byte) : Statement (.planRead tag slot) :=
  of_some rfl (by decide) (fun _ => by simp)

theorem planClear (tag : Byte) (slot : Byte) : Statement (.planClear tag slot) :=
  of_some rfl (by decide) (fun _ => by simp)

theorem stepRun (via : Via) (slot : Byte) (run : Word32) : Statement (.stepRun via slot run) := by
  cases via
  · exact of_some rfl (by decide) (fun _ => by simp [bytes32])
  · exact of_none rfl

theorem stepQueue (via : Via) (slot : Byte) (run : Word32) : Statement (.stepQueue via slot run) := by
  cases via
  · exact of_some rfl (by decide) (fun _ => by simp [bytes32])
  · exact of_none rfl

theorem stepAbort (via : Via) : Statement (.stepAbort via) := by
  cases via
  · exact of_some rfl (by decide) (fun _ => by simp)
  · exact of_none rfl

theorem positionLoad (tag : Byte) (r : LoadRecord) : Statement (.positionLoad tag r) :=
  of_some rfl (by decide) (fun _ => by simp [LoadRecord.payload, bytes16, bytes24, bytes32])

theorem positionClear (tag : Byte) (position : Byte) : Statement (.positionClear tag position) :=
  of_some rfl (by decide) (fun _ => by simp)

theorem positionIncludeOn (tag : Byte) (position : Byte) : Statement (.positionIncludeOn tag position) :=
  of_some rfl (by decide) (fun _ => by simp)

theorem positionIncludeOff (tag : Byte) (position : Byte) : Statement (.positionIncludeOff tag position) :=
  of_some rfl (by decide) (fun _ => by simp)

theorem positionRead (tag : Byte) (position : Byte) : Statement (.positionRead tag position) :=
  of_some rfl (by decide) (fun _ => by simp)

theorem resultRead (tag : Byte) (position : Byte) (stepNo : Byte) : Statement (.resultRead tag position stepNo) :=
  of_some rfl (by decide) (fun _ => by simp)

theorem correctionCompute (tag : Byte) (mask : Word16) (a : Byte) (b : Option Byte) : Statement (.correctionCompute tag mask a b) :=
  of_some rfl (by decide) (fun _ => by
    cases b <;> simp [bytes16, stepBPayload])

theorem verifyEvaluate (tag : Byte) (mask : Word16) (steps : List Byte) : Statement (.verifyEvaluate tag mask steps) :=
  of_some rfl (by decide) (fun h => by
    simp [Instr.wf] at h
    simp [bytes16]; omega)

theorem port (tag : Byte) (position : Byte) (frame : List Byte) : Statement (.port tag position frame) :=
  of_some rfl (by decide) (fun h => by
    simp [Instr.wf] at h
    simp; omega)

theorem storeStatus (tag : Byte) : Statement (.storeStatus tag) :=
  of_some rfl (by decide) (fun _ => by simp)

theorem storeRead (tag : Byte) (slot : Word16) : Statement (.storeRead tag slot) :=
  of_some rfl (by decide) (fun _ => by simp [bytes16])

theorem storeCollect (tag : Byte) (number : Word32) : Statement (.storeCollect tag number) :=
  of_some rfl (by decide) (fun _ => by simp [bytes32])

theorem storeErase (tag : Byte) (sector : Byte) : Statement (.storeErase tag sector) :=
  of_some rfl (by decide) (fun _ => by simp)

theorem sourceReadyFall : Statement .sourceReadyFall :=
  of_none rfl

theorem syncInFall : Statement .syncInFall :=
  of_none rfl

theorem unselectedTransition (p : Pos) : Statement (.unselectedTransition p) :=
  of_none rfl

theorem fillBeforeCellComplete (port : LinkPort) : Statement (.fillBeforeCellComplete port) :=
  of_none rfl

end Sys2Proof.Laws.Fields
end

