-- ==== Sys2Proof/Laws/Ready.lean ====
section
/-! SUPPORT. What a module that is ready does with a command, in the terms claims use. -/

namespace Sys2Proof.Machine

open Sys2Proof.Safety

/-- A module that is awake takes cells. -/
theorem deaf_of_awake {s : State} (h : Awake s) : s.deaf = false := by
  obtain ⟨a, b, c⟩ := h
  simp only [State.deaf, State.strapped, c, decide_eq_true a, decide_eq_true b, Bool.and_self, Bool.not_true,
    Bool.or_self]

theorem deaf_of_ready {s : State} (h : Ready s) : s.deaf = false := deaf_of_awake h.1

/-- A module that is ready has room for an answer. -/
theorem answersFull_of_ready {s : State} (h : Ready s) : s.answersFull = false :=
  decide_eq_false (Nat.not_le_of_lt h.2)

/-- An answer at the tail of the queue, as claims write it. -/
theorem pushAnswer_answered (tag : Byte) (a : Reply) (s : State) :
    pushAnswer tag a s = answered tag (a.status.code :: a.bytes) s := rfl

/-- A command at a module that is ready: its owner's act, and its answer. -/
theorem takeCommand_ready {tag : Byte} {act : State → State × Reply} {s : State} (h : Ready s) :
    takeCommand tag act s = answered tag ((act s).2.status.code :: (act s).2.bytes) (act s).1 :=
  takeCommand_taken (deaf_of_ready h) h.2

/-- A command that a module takes by the way it came. -/
theorem takeVia_takes {via : Via} {act : State → State × Reply} {s : State} (h : Takes via s) :
    takeVia via act s = answeredVia via ((act s).2.status.code :: (act s).2.bytes) (act s).1 := by
  cases via with
  | addressed tag => exact takeCommand_ready h
  | broadcast => simp [takeVia, deaf_of_awake (s := s) h, answeredVia]

end Sys2Proof.Machine
end

