-- ==== Sys2Proof/Laws/StepKey.lean ====
section
/-! SUPPORT. What the acts do to the step state, the active step and the running set: most leave all three,
and the moves of a step keep them consistent (R41). -/

namespace Sys2Proof.Machine

open Sys2Proof.Safety

/-- The step state, the active step and the running set. -/
def stepKey (s : State) : StepState × Option StepRef × List Pos :=
  (s.psc.stepState, s.psc.active, s.psc.running)

end Sys2Proof.Machine

namespace Sys2Proof.Safety

open Sys2Proof.Machine

/-- The consistency of R41 depends on the three alone. -/
theorem StepsConsistent.congr {s t : State} (h : stepKey t = stepKey s) (k : StepsConsistent s) :
    StepsConsistent t := by
  simp only [stepKey, Prod.mk.injEq] at h
  simpa [StepsConsistent, State.stepActive, h.1, h.2.1, h.2.2] using k

end Sys2Proof.Safety

namespace Sys2Proof.Machine

open Sys2Proof.Safety

theorem stepKey_forEach {l : List Pos} {f : Pos → State → State} (h : ∀ p s, stepKey (f p s) = stepKey s)
    (s : State) : stepKey (forEach l f s) = stepKey s := by
  induction l generalizing s with
  | nil => rfl
  | cons p l ih => exact (ih (f p s)).trans (h p s)

theorem consistent_forEach {l : List Pos} {f : Pos → State → State}
    (h : ∀ p s, StepsConsistent s → StepsConsistent (f p s)) {s : State} (k : StepsConsistent s) :
    StepsConsistent (forEach l f s) := by
  induction l generalizing s with
  | nil => exact k
  | cons p l ih => exact ih (h p s k)

/-! ### Acts that leave the three -/

theorem setRead_key (p : Pos) (x : ReadState) (s : State) : stepKey (setRead p x s) = stepKey s := by
  unfold setRead
  split <;> rfl

theorem placeOwed_key (p : Pos) (s : State) : stepKey (placeOwed p s) = stepKey s := by
  unfold placeOwed
  split
  · exact setRead_key ..
  · rfl

theorem startedRead_key (p : Pos) (q : TemplateRequest) (s : State) :
    stepKey (startedRead p q s) = stepKey s := by
  cases q
  · rfl
  · exact setRead_key ..

theorem startTemplate_key (p : Pos) (q : TemplateRequest) (s : State) :
    stepKey (startTemplate p q s) = stepKey s := (placeOwed_key ..).trans (startedRead_key ..)

theorem tryStart_key (p : Pos) (s : State) : stepKey (tryStart p s) = stepKey s := by
  unfold tryStart
  repeat' split
  all_goals first
    | rfl
    | exact startTemplate_key ..

theorem placeRead_key (p : Pos) (s : State) : stepKey (placeRead p s) = stepKey s :=
  (tryStart_key ..).trans (placeOwed_key ..)

theorem recordVerdict_key (p : Pos) (n : Fin 32) (e : Entry) (s : State) :
    stepKey (recordVerdict p n e s) = stepKey s := rfl

theorem createGates_key (s : State) : stepKey (createGates s) = stepKey s := by
  unfold createGates
  exact stepKey_forEach (fun _ _ => by rfl) s

theorem createWindows_key (w : Bool) (s : State) : stepKey (createWindows w s) = stepKey s := by
  unfold createWindows
  exact stepKey_forEach (fun _ _ => by rfl) s

theorem beginWork_key (r : StepRecord) (k : StepKind) (s : State) : stepKey (beginWork r k s) = stepKey s := by
  cases k
  · exact createGates_key _
  · exact createWindows_key _ _
  · exact createWindows_key _ _
  · rfl

theorem ownSecondRead_key (p : Pos) (s : State) : stepKey (ownSecondRead p s) = stepKey s := by
  unfold ownSecondRead
  split
  · rfl
  · exact placeRead_key ..

theorem endRead_key (p : Pos) (s : State) : stepKey (endRead p s) = stepKey s := rfl

theorem dropWork_key (p : Pos) (s : State) : stepKey (dropWork p s) = stepKey s := by
  unfold dropWork
  dsimp only
  split <;> rfl

theorem markGateResult_key (p : Pos) (s : State) : stepKey (markGateResult p s) = stepKey s := by
  unfold markGateResult
  split <;> rfl

theorem takeExpiry_key (u : TimerUse) (s : State) : stepKey (takeExpiry u s).2 = stepKey s := by
  unfold takeExpiry
  repeat' split
  all_goals rfl

/-- The building of reports leaves the three. -/
theorem buildDue_key (s : State) : stepKey (buildDue s) = stepKey s := by simp [stepKey]

theorem emptyQueue_key (s : State) : stepKey (emptyQueue s) = stepKey s := rfl

theorem setPos_key (s : State) (p : Pos) (r : PositionRecord) : stepKey (s.setPos p r) = stepKey s := rfl

theorem setChan_key (s : State) (p : Pos) (c : Channel) : stepKey (s.setChan p c) = stepKey s := rfl

theorem reloadLine_key (p : Pos) (s : State) : stepKey (reloadLine p s) = stepKey s := rfl

/-! ### Moves of a step -/

theorem leaveRunning_consistent (p : Pos) {s : State} (h : StepsConsistent s) :
    StepsConsistent (leaveRunning p s) := by
  refine ⟨h.1, fun k => ?_⟩
  have := h.2 k
  simp [leaveRunning, this]

theorem giveVerdict_consistent (p : Pos) (e : Entry) {s : State} (h : StepsConsistent s) :
    StepsConsistent (giveVerdict p e s) := by
  unfold giveVerdict
  repeat' split
  · exact h
  · exact leaveRunning_consistent p (h.congr (recordVerdict_key ..))
  · exact h

/-- With an active step, a step state of an active step is consistent. -/
theorem consistent_of_active {s : State} (h : s.psc.active.isSome) (k : s.stepActive = true) :
    StepsConsistent s := ⟨by rw [h, k], fun e => by simp [e] at h⟩

theorem activeRecord_isSome {s : State} {r : StepRecord} (h : s.activeRecord = some r) :
    s.psc.active.isSome := by
  unfold State.activeRecord at h
  cases e : s.psc.active with
  | none => simp [e] at h
  | some _ => rfl

theorem enterRunning_consistent {s : State} (h : StepsConsistent s) : StepsConsistent (enterRunning s) := by
  unfold enterRunning
  repeat' split
  · exact h
  · exact h
  · refine StepsConsistent.congr (beginWork_key ..) (consistent_of_active ?_ ?_)
    · exact activeRecord_isSome (s := s) ‹_›
    · rfl

theorem enterSettling_consistent {s : State} (h : StepsConsistent s) : StepsConsistent (enterSettling s) := by
  unfold enterSettling
  split
  · exact h
  · have k : StepsConsistent (startTimer .triggerDelay .ms 1
        (StepRecord.delay ‹_›).toNat (setStepState .settling s)) :=
      consistent_of_active (activeRecord_isSome (s := s) ‹_›) rfl
    dsimp only
    split
    · exact enterRunning_consistent k
    · exact k

theorem enterArmed_consistent_of {s : State} (h : s.activeRecord = none → StepsConsistent s) :
    StepsConsistent (enterArmed s) := by
  unfold enterArmed
  split
  · exact h ‹_›
  · have k : StepsConsistent (recordStepEvent .armed (setStepState .armed s)) :=
      consistent_of_active (activeRecord_isSome (s := s) ‹_›) rfl
    dsimp only
    split
    · exact enterSettling_consistent k
    · exact k

theorem enterArmed_consistent {s : State} (h : StepsConsistent s) : StepsConsistent (enterArmed s) :=
  enterArmed_consistent_of (fun _ => h)

theorem takeTrigger_consistent (x : Trigger) {s : State} (h : StepsConsistent s) :
    StepsConsistent (takeTrigger x s) := by
  unfold takeTrigger
  repeat' split
  · exact h
  · exact (enterSettling_consistent h).congr (buildDue_key _)
  · exact h

theorem enterReadBefore_consistent {s : State} (h : s.psc.active.isSome) :
    StepsConsistent (enterReadBefore s) := by
  unfold enterReadBefore
  refine StepsConsistent.congr (stepKey_forEach (fun p t => ?_) _)
    (consistent_of_active (s := setStepState .readBefore s) h rfl)
  exact (placeRead_key p _).trans rfl

theorem enterReadAfter_consistent {s : State} (h : s.psc.active.isSome) :
    StepsConsistent (enterReadAfter s) := by
  unfold enterReadAfter
  exact .congr (stepKey_forEach ownSecondRead_key _)
    (consistent_of_active (s := { s with psc := { s.psc with stepState := .readAfter, timerUse := .none } })
      h rfl)

theorem enterSettleAfter_consistent (r : StepRecord) {s : State} (h : s.psc.active.isSome) :
    StepsConsistent (enterSettleAfter r s) := by
  unfold enterSettleAfter
  dsimp only
  split
  · exact enterReadAfter_consistent h
  · exact consistent_of_active h rfl

theorem retireStep_consistent {x : StepState} (hx : x = .idle ∨ x = .complete) (s : State) :
    StepsConsistent (retireStep x s) := by
  rcases hx with rfl | rfl <;> exact ⟨rfl, fun _ => rfl⟩

theorem finishStep_consistent (s : State) : StepsConsistent (finishStep s) :=
  .congr rfl (retireStep_consistent (.inr rfl) s)

theorem startStep_consistent (r : StepRef) (s : State) : StepsConsistent (startStep r s) := by
  unfold startStep
  dsimp only
  split
  · exact finishStep_consistent _
  · split
    · exact finishStep_consistent _
    · exact enterReadBefore_consistent rfl
    · rename_i hk
      refine enterArmed_consistent_of (fun e => ?_)
      unfold State.activeKind at hk
      rw [e] at hk
      exact absurd hk (by simp)

theorem completeStep_consistent (s : State) : StepsConsistent (completeStep s) := by
  unfold completeStep
  split
  · exact finishStep_consistent s
  · exact startStep_consistent ..

theorem completeIfEmpty_consistent {s : State} (h : StepsConsistent s) : StepsConsistent (completeIfEmpty s) := by
  unfold completeIfEmpty
  split
  · exact completeStep_consistent s
  · exact h

theorem armIfRead_consistent {s : State} (h : StepsConsistent s) : StepsConsistent (armIfRead s) := by
  unfold armIfRead
  split
  · exact enterArmed_consistent (h.congr (stepKey_forEach (fun _ _ => setRead_key ..) s))
  · exact h

theorem afterVerdict_consistent {s : State} (h : StepsConsistent s) : StepsConsistent (afterVerdict s) :=
  armIfRead_consistent (completeIfEmpty_consistent h)

theorem registerVerdictActs_consistent (p : Pos) (e : Entry) (c : RegContext) {s : State}
    (h : StepsConsistent s) : StepsConsistent (registerVerdictActs p e c s) :=
  afterVerdict_consistent (giveVerdict_consistent p e (h.congr rfl))

theorem readOutcome_consistent (p : Pos) (o : Verdict ⊕ Nat) {s : State} (h : StepsConsistent s) :
    StepsConsistent (readOutcome p o s) := by
  unfold readOutcome readingFailed readingTaken
  repeat' split
  all_goals first
    | exact h
    | exact registerVerdictActs_consistent _ _ _ h
    | exact armIfRead_consistent (h.congr rfl)

theorem emptyOutcome_consistent (p : Pos) (q : TemplateRequest) {s : State} (h : StepsConsistent s) :
    StepsConsistent (emptyOutcome p q s) := by
  cases q
  · exact h.congr rfl
  · exact readOutcome_consistent p (.inl .badReading) h

theorem endEmpty_consistent (p : Pos) (q : TemplateRequest) {s : State} (h : StepsConsistent s) :
    StepsConsistent (endEmpty p q s) := by
  have k : StepsConsistent
      (placeOwed p (startedRead p q (s.setChan p { s.chan p with internal := none }))) :=
    h.congr ((placeOwed_key ..).trans (startedRead_key ..))
  exact (emptyOutcome_consistent p q k).congr (tryStart_key ..)

theorem endOneEmpty_consistent {s : State} (h : StepsConsistent s) : StepsConsistent (endOneEmpty s) := by
  unfold endOneEmpty
  repeat' split
  · exact h
  · exact h
  · exact endEmpty_consistent _ _ h

theorem quiesce_consistent {s : State} (h : StepsConsistent s) : StepsConsistent (quiesce s) := by
  have k : ∀ (l : List Nat) (s : State), StepsConsistent s →
      StepsConsistent (l.foldl (fun t _ => endOneEmpty t) s) := by
    intro l
    induction l with
    | nil => exact fun _ h => h
    | cons _ l ih => exact fun s h => ih _ (endOneEmpty_consistent h)
  exact k _ s h

/-- The end of an event keeps the step state consistent. -/
theorem settle_consistent {s : State} (h : StepsConsistent s) : StepsConsistent (settle s) :=
  (quiesce_consistent h).congr (buildDue_key _)

theorem abortStep_consistent {s : State} (h : StepsConsistent s) : StepsConsistent (abortStep s) := by
  unfold abortStep
  split
  · exact .congr rfl (retireStep_consistent (.inl rfl) s)
  · exact h

theorem startChannels_consistent {s : State} (h : StepsConsistent s) : StepsConsistent (startChannels s) :=
  h.congr (stepKey_forEach tryStart_key s)

theorem abortFirst_consistent {s : State} (h : StepsConsistent s) : StepsConsistent (abortFirst s) := by
  unfold abortFirst
  split
  · exact quiesce_consistent (startChannels_consistent (abortStep_consistent h))
  · exact h

theorem exclude_consistent (p : Pos) {s : State} (h : StepsConsistent s) : StepsConsistent (exclude p s) := by
  unfold exclude
  split
  · refine quiesce_consistent (afterVerdict_consistent (quiesce_consistent ?_))
    exact (giveVerdict_consistent p _ h).congr ((tryStart_key ..).trans (dropWork_key ..))
  · exact h

theorem triggerDelayExpiry_consistent {s : State} (h : StepsConsistent s) :
    StepsConsistent (triggerDelayExpiry s) := by
  have k := h.congr (takeExpiry_key .triggerDelay s)
  unfold triggerDelayExpiry
  generalize takeExpiry .triggerDelay s = t at k ⊢
  dsimp only
  split
  · exact (enterRunning_consistent k).congr (buildDue_key _)
  · exact k

theorem windowEndVerdict_consistent (p : Pos) {s : State} (h : StepsConsistent s) :
    StepsConsistent (windowEndVerdict p s) := by
  unfold windowEndVerdict
  split
  · exact giveVerdict_consistent _ _ h
  · exact giveVerdict_consistent _ _ h
  · exact h

theorem windowEndActs_consistent {s : State} (h : StepsConsistent s) : StepsConsistent (windowEndActs s) := by
  unfold windowEndActs
  repeat' split
  · exact h
  · exact enterSettleAfter_consistent _ (activeRecord_isSome ‹_›)
  · exact completeIfEmpty_consistent (consistent_forEach (fun p _ => windowEndVerdict_consistent p) h)

theorem windowEnd_consistent {s : State} (h : StepsConsistent s) : StepsConsistent (windowEnd s) := by
  have k := h.congr (takeExpiry_key .window s)
  unfold windowEnd
  generalize takeExpiry .window s = t at k ⊢
  dsimp only
  split
  · exact settle_consistent (windowEndActs_consistent k)
  · exact k

theorem settleExpiry_consistent {s : State} (h : StepsConsistent s) : StepsConsistent (settleExpiry s) := by
  have k := h.congr (takeExpiry_key .settle s)
  unfold settleExpiry
  generalize takeExpiry .settle s = t at k ⊢
  dsimp only
  split
  · rename_i c
    refine settle_consistent (enterReadAfter_consistent ?_)
    rw [← k.1, State.stepActive, c.2]
  · exact k

theorem refLostActs_consistent {s : State} (h : StepsConsistent s) : StepsConsistent (refLostActs s) := by
  unfold refLostActs
  split
  · have k : StepsConsistent (forEach s.psc.running (fun p t => giveVerdict p (cutEntry .refLost p t) t) s) :=
      consistent_forEach (fun p _ => giveVerdict_consistent p _) h
    generalize forEach s.psc.running (fun p t => giveVerdict p (cutEntry .refLost p t) t) s = t at k ⊢
    exact quiesce_consistent (completeIfEmpty_consistent (k.congr rfl))
  · exact h

theorem stepRunActs_consistent (b : Byte) (run : Word32) {s : State} (h : StepsConsistent s) :
    StepsConsistent (stepRunActs b run s).1 := by
  unfold stepRunActs
  split
  · exact h
  · rw [accept_fst]
    exact settle_consistent (startStep_consistent ..)

theorem stepQueueActs_consistent (b : Byte) (run : Word32) {s : State} (h : StepsConsistent s) :
    StepsConsistent (stepQueueActs b run s).1 := by
  unfold stepQueueActs
  repeat' split
  · exact h
  · exact h.congr rfl
  · rw [accept_fst]
    exact settle_consistent (startStep_consistent ..)

theorem stepAbortActs_consistent {s : State} (h : StepsConsistent s) : StepsConsistent (stepAbortActs s).1 := by
  unfold stepAbortActs
  repeat' split
  · rw [accept_fst]
    exact ((abortFirst_consistent h).congr (emptyQueue_key _)).congr (buildDue_key _)
  · rename_i h1 h2
    refine ⟨?_, h.2⟩
    have := h.1
    simp only [State.stepActive, h2] at this
    exact this
  · exact h

theorem planWriteActs_key (b : Byte) (r : StepRecord) (s : State) :
    stepKey (planWriteActs b r s).1 = stepKey s := by
  unfold planWriteActs
  repeat' split
  all_goals rfl

theorem planReadActs_key (b : Byte) (s : State) : stepKey (planReadActs b s).1 = stepKey s := by
  unfold planReadActs
  split <;> rfl

theorem planClearActs_key (b : Byte) (s : State) : stepKey (planClearActs b s).1 = stepKey s := by
  unfold planClearActs
  repeat' split
  all_goals rfl

/-! ### Gates, windows, lines -/

theorem replaceGateResult_key (p : Pos) (x : GateResult) (s : State) :
    stepKey (replaceGateResult p x s) = stepKey s := markGateResult_key p _

theorem endGates_consistent (p : Pos) (v : Verdict) (g : GateContext) {s : State} (h : StepsConsistent s) :
    StepsConsistent (endGates p v g s) := afterVerdict_consistent (giveVerdict_consistent p _ (h.congr rfl))

theorem closeGate_consistent (p : Pos) (r : StepRecord) (l : GateLatch) (g : GateContext) {s : State}
    (h : StepsConsistent s) : StepsConsistent (closeGate p r l g s) := by
  unfold closeGate
  dsimp only
  split
  · exact h.congr (replaceGateResult_key p _ s)
  · exact endGates_consistent _ _ _ (h.congr (replaceGateResult_key p _ s))

theorem gateEdge_consistent (p : Pos) (g : GateContext) {s : State} (h : StepsConsistent s) :
    StepsConsistent (gateEdge p g s) := by
  unfold gateEdge countGate
  repeat' split
  all_goals first
    | exact h
    | exact h.congr rfl
    | exact closeGate_consistent _ _ _ _ h

theorem decideWindow_consistent (p : Pos) (w : WindowRecord) (e : Entry) {s : State} (h : StepsConsistent s) :
    StepsConsistent (decideWindow p w e s) :=
  completeIfEmpty_consistent (giveVerdict_consistent p e (h.congr rfl))

theorem windowEdge_consistent (p : Pos) (w : WindowRecord) {s : State} (h : StepsConsistent s) :
    StepsConsistent (windowEdge p w s) := by
  unfold windowEdge creepEdge startEdge
  dsimp only
  repeat' split
  all_goals first
    | exact h
    | exact h.congr rfl
    | exact decideWindow_consistent _ _ _ h

theorem takeCandidate_consistent (p : Pos) {s : State} (h : StepsConsistent s) :
    StepsConsistent (takeCandidate p s) := by
  unfold takeCandidate
  split
  · exact h.congr rfl
  · refine settle_consistent ?_
    unfold handEdge
    split
    · exact gateEdge_consistent _ _ (h.congr rfl)
    · exact windowEdge_consistent _ _ (h.congr rfl)
    · exact h.congr rfl

theorem gateTimeout_consistent (p : Pos) {s : State} (h : StepsConsistent s) :
    StepsConsistent (gateTimeout p s) := by
  unfold gateTimeout
  repeat' split
  · exact h
  · exact h
  · exact settle_consistent (endGates_consistent _ _ _ h)

theorem candidateEdge_consistent (p : Pos) {s : State} (h : StepsConsistent s) :
    StepsConsistent (candidateEdge p s) := takeCandidate_consistent p (h.congr rfl)

theorem unselectedTransition_key (p : Pos) (s : State) : stepKey (unselectedTransition p s) = stepKey s := by
  unfold unselectedTransition
  dsimp only
  split <;> rfl

theorem sampleLine_consistent (p : Pos) {s : State} (h : StepsConsistent s) :
    StepsConsistent (sampleLine p s) := by
  unfold sampleLine
  dsimp only
  split
  · exact takeCandidate_consistent p (h.congr rfl)
  · exact h.congr rfl

theorem advanceTimer_key (s : State) : stepKey (advanceTimer s) = stepKey s := by
  unfold advanceTimer
  split <;> rfl

theorem referenceEdge_key (e : RefEdge) (n : Nat) (s : State) : stepKey (referenceEdge e n s) = stepKey s := by
  unfold referenceEdge countReference countInMonitor countInTimer advanceTimer
  repeat' split
  all_goals rfl

theorem refLost_consistent {s : State} (h : StepsConsistent s) : StepsConsistent (refLost s) := by
  unfold refLost
  split
  · exact h
  · refine StepsConsistent.congr (buildDue_key _) (refLostActs_consistent ?_)
    exact h.congr rfl

theorem syncEdge_consistent {s : State} (h : StepsConsistent s) : StepsConsistent (syncEdge s) := by
  unfold syncEdge
  split
  · exact h
  · exact takeTrigger_consistent _ (h.congr rfl)

theorem sourceReadyAssertion_consistent {s : State} (h : StepsConsistent s) :
    StepsConsistent (sourceReadyAssertion s) := by
  unfold sourceReadyAssertion
  split
  · exact h
  · exact takeTrigger_consistent _ (h.congr rfl)

/-! ### Positions, corrections, channels -/

theorem abortIdentify_key (p : Pos) (s : State) : stepKey (abortIdentify p s) = stepKey s := by
  unfold abortIdentify
  split <;> rfl

theorem clearPosition_consistent (p : Pos) {s : State} (h : StepsConsistent s) :
    StepsConsistent (clearPosition p s) := by
  unfold clearPosition
  refine settle_consistent (StepsConsistent.congr (tryStart_key ..) ?_)
  refine StepsConsistent.congr ((reloadLine_key ..).trans (setPos_key ..)) ?_
  exact (exclude_consistent p (h.congr (setPos_key ..))).congr (abortIdentify_key p _)

theorem excludePosition_consistent (p : Pos) {s : State} (h : StepsConsistent s) :
    StepsConsistent (excludePosition p s) := by
  unfold excludePosition
  split
  · exact (exclude_consistent p (h.congr (setPos_key ..))).congr (buildDue_key _)
  · exact h.congr (setPos_key ..)

theorem loadPosition_key (p : Pos) (set : LineSettings) (r : LoadRecord) (s : State) :
    stepKey (loadPosition p set r s) = stepKey s := by
  unfold loadPosition
  split <;> rfl

theorem templateEnds_consistent (p : Pos) {f : State → State}
    (h : ∀ s, StepsConsistent s → StepsConsistent (f s)) {s : State} (k : StepsConsistent s) :
    StepsConsistent (templateEnds p f s) :=
  settle_consistent (StepsConsistent.congr (tryStart_key ..) (h _ (k.congr rfl)))

theorem freeChannel_consistent (p : Pos) {s : State} (h : StepsConsistent s) :
    StepsConsistent (freeChannel p s) := settle_consistent (h.congr (tryStart_key ..))

theorem identifyReply_key (p : Pos) (x : Option (List Byte)) (s : State) :
    stepKey (identifyReply p x s) = stepKey s := by
  unfold identifyReply
  split <;> rfl

theorem readReply_consistent (p : Pos) (x : Option Nat) {s : State} (h : StepsConsistent s) :
    StepsConsistent (readReply p x s) := by
  unfold readReply
  split <;> exact readOutcome_consistent _ _ h

end Sys2Proof.Machine
end

