-- ==== Sys2Proof/Laws/Tables.lean ====
section
/-! SUPPORT. The laws of the sparse tables (the nonvolatile store and its reservations): what is read after a
write, and that a write keeps the canonical form. -/

namespace Sys2Proof.Machine

variable {α : Type} [DecidableEq α] {d : α}

theorem Table.wf_cons {k : Nat} {v : α} {t : List (Nat × α)} :
    Table.wf d ((k, v) :: t) = true ↔ (∀ e ∈ t, k < e.1) ∧ v ≠ d ∧ Table.wf d t = true := by
  simp [Table.wf, and_assoc]

omit [DecidableEq α] in
/-- A place below every listed one reads as unlisted. -/
theorem Table.read_of_lt {t : List (Nat × α)} {n : Nat} (h : ∀ e ∈ t, n < e.1) : Table.read d t n = d := by
  induction t with
  | nil => rfl
  | cons e t ih =>
    have hn : n ≠ e.1 := Nat.ne_of_lt (h e (by simp))
    simp [Table.read, hn, ih (fun e he => h e (by simp [he]))]

/-- A write adds no place but its own. -/
theorem Table.mem_write {t : List (Nat × α)} {n : Nat} {v : α} {e : Nat × α}
    (h : e ∈ Table.write d t n v) : e = (n, v) ∨ e ∈ t := by
  induction t with
  | nil =>
    simp only [Table.write] at h
    split at h <;> simp_all
  | cons a t ih =>
    obtain ⟨k, w⟩ := a
    simp only [Table.write] at h
    split at h
    · split at h <;> simp_all
    · split at h
      · split at h
        · simp [h]
        · rcases List.mem_cons.1 h with h | h <;> simp [h]
      · rcases List.mem_cons.1 h with h | h
        · simp [h]
        · rcases ih h with h | h <;> simp [h]

/-- Every write keeps the canonical form. -/
theorem Table.wf_write {t : List (Nat × α)} (n : Nat) (v : α) (h : Table.wf d t = true) :
    Table.wf d (Table.write d t n v) = true := by
  induction t with
  | nil =>
    simp only [Table.write]
    split <;> simp_all [Table.wf]
  | cons a t ih =>
    obtain ⟨k, w⟩ := a
    obtain ⟨hk, hw, ht⟩ := Table.wf_cons.1 h
    simp only [Table.write]
    split
    · rename_i hn
      split
      · exact h
      · rename_i hv
        refine Table.wf_cons.2 ⟨fun e he => ?_, hv, h⟩
        rcases List.mem_cons.1 he with rfl | he
        · exact hn
        · exact Nat.lt_trans hn (hk e he)
    · split
      · rename_i hn
        subst hn
        split
        · exact ht
        · rename_i hv
          exact Table.wf_cons.2 ⟨hk, hv, ht⟩
      · rename_i h1 h2
        refine Table.wf_cons.2 ⟨fun e he => ?_, hw, ih ht⟩
        rcases Table.mem_write he with rfl | he
        · show k < n; omega
        · exact hk e he

/-- What is read after a write: the value written at its place, and every other place as before. -/
theorem Table.read_write {t : List (Nat × α)} (n m : Nat) (v : α) (h : Table.wf d t = true) :
    Table.read d (Table.write d t n v) m = if m = n then v else Table.read d t m := by
  induction t with
  | nil => simp only [Table.write]; split <;> simp_all [Table.read]
  | cons a t ih =>
    obtain ⟨k, w⟩ := a
    obtain ⟨hk, -, ht⟩ := Table.wf_cons.1 h
    simp only [Table.write]
    split
    · rename_i hn
      split
      · rename_i hv
        subst hv
        split
        · subst m
          exact Table.read_of_lt (by
            intro e he
            rcases List.mem_cons.1 he with rfl | he
            · exact hn
            · exact Nat.lt_trans hn (hk e he))
        · rfl
      · simp [Table.read]
    · split
      · rename_i hn
        subst hn
        split
        · rename_i hv
          subst hv
          split
          · subst m; exact Table.read_of_lt hk
          · simp [Table.read, *]
        · simp only [Table.read]; split <;> simp_all
      · simp only [Table.read, ih ht]
        split
        · rw [if_neg]; omega
        · rfl

end Sys2Proof.Machine
end

