-- ==== Sys2Proof/Laws/Store.lean ====
section
/-! SUPPORT. The laws of the Seal Record Store: every act on it keeps the canonical form of its tables, and
the job queue touches nothing outside the store, the SEAL_DONE list, the marks and the report queue. -/

namespace Sys2Proof.Machine

open Sys2Proof.Safety

/-- The tables of a store part are in canonical form. -/
def Srs.canonical (r : Srs) : Prop :=
  Table.wf SlotContents.erased r.contents = true ∧ Table.wf none r.reserved = true

theorem storeCanonical_iff (s : State) : StoreCanonical s ↔ s.srs.canonical := Iff.rfl

theorem Srs.slot_setSlot {r : Srs} (h : r.canonical) (n m : Nat) (c : SlotContents) :
    (r.setSlot n c).slot m = if m = n then c else r.slot m := Table.read_write n m c h.1

theorem Srs.reservation_setReservation {r : Srs} (h : r.canonical) (n m : Nat) (v : Option Reservation) :
    (r.setReservation n v).reservation m = if m = n then v else r.reservation m := Table.read_write n m v h.2

theorem Srs.setSlot_canonical {r : Srs} (h : r.canonical) (n : Nat) (c : SlotContents) :
    (r.setSlot n c).canonical := ⟨Table.wf_write n c h.1, h.2⟩

theorem Srs.setReservation_canonical {r : Srs} (h : r.canonical) (n : Nat) (v : Option Reservation) :
    (r.setReservation n v).canonical := ⟨h.1, Table.wf_write n v h.2⟩

theorem Srs.reserve_canonical {r : Srs} (h : r.canonical) (n : Nat) (p : Pos) : (r.reserve n p).canonical :=
  Srs.setReservation_canonical h _ _

theorem Srs.noteNumber_canonical {r : Srs} (h : r.canonical) (n k : Nat) : (r.noteNumber n k).canonical := by
  unfold Srs.noteNumber
  repeat' split
  all_goals exact h

theorem runActs_canonical (l : List FlashAct) {r : Srs} (h : r.canonical) : (runActs l r).canonical := by
  unfold runActs
  induction l generalizing r with
  | nil => exact h
  | cons a l ih => exact ih (Srs.setSlot_canonical h _ _)

theorem writeNote_canonical (n : Option Nat) (k : Nat) {r : Srs} (h : r.canonical) :
    (writeNote n r k).canonical := Srs.setSlot_canonical h _ _

theorem failJob_canonical (j : Job) {r : Srs} (h : r.canonical) : (failJob j r).canonical := by
  cases j with
  | erase sector =>
    have k : ∀ (l : List Nat) (r : Srs), r.canonical → (l.foldl (writeNote none) r).canonical := by
      intro l
      induction l with
      | nil => exact fun _ h => h
      | cons n l ih => exact fun r h => ih _ (writeNote_canonical none n h)
    exact k _ r h
  | collect => exact h
  | header | body | fullRecord => exact writeNote_canonical _ _ h

theorem flashResult_canonical (ok : Bool) (j : Job) {r : Srs} (h : r.canonical) :
    (flashResult ok j r).canonical := by
  cases ok
  · exact failJob_canonical j h
  · exact runActs_canonical _ h

theorem cutJob_canonical (c : FlashCut) (j : Job) {r : Srs} (h : r.canonical) :
    (cutJob c j r).canonical := by
  unfold cutJob
  repeat' split
  · exact runActs_canonical _ h
  · exact Srs.setSlot_canonical (runActs_canonical _ h) _ _
  · exact runActs_canonical _ h

theorem jobAtStart_canonical {j j' : Job} {r r' : Srs} (h : r.canonical) (k : jobAtStart r j = some (r', j')) :
    r'.canonical := by
  unfold jobAtStart at k
  repeat' split at k
  all_goals first
    | (simp only [Option.some.injEq, Prod.mk.injEq] at k
       obtain ⟨rfl, -⟩ := k
       first
         | exact h
         | exact Srs.reserve_canonical h _ _)
    | exact absurd k (by simp)

/-- What an act of the store and its job queue does: it changes the store part, the SEAL_DONE list with its
tally, the marks and the report queue, and breaks none of their bounds. -/
structure StoreAct (s t : State) : Prop where
  rest      : t = { s with
    srs := t.srs,
    bli := { s.bli with
      sealDone := t.bli.sealDone, sealDrops := t.bli.sealDrops, reports := t.bli.reports, marks := t.bli.marks,
      markRefLost := t.bli.markRefLost, markStepState := t.bli.markStepState, markStore := t.bli.markStore } }
  canonical : s.srs.canonical → t.srs.canonical
  listed    : s.bli.sealDone.length ≤ 24 → t.bli.sealDone.length ≤ 24
  drops     : s.bli.sealDrops ≤ 65535 → t.bli.sealDrops ≤ 65535
  room      : s.bli.reports.length ≤ 16 → t.bli.reports.length ≤ 16 := by exact id

theorem StoreAct.refl (s : State) : StoreAct s s := ⟨rfl, id, id, id, id⟩

theorem StoreAct.trans {s t u : State} (h : StoreAct s t) (k : StoreAct t u) : StoreAct s u where
  rest := by
    have h1 := h.rest
    have h2 := k.rest
    rw [h1] at h2
    exact h2
  canonical := fun x => k.canonical (h.canonical x)
  listed := fun x => k.listed (h.listed x)
  drops := fun x => k.drops (h.drops x)
  room := fun x => k.room (h.room x)

theorem setSrs_act {s : State} {r : Srs} (h : s.srs.canonical → r.canonical) :
    StoreAct s { s with srs := r } := ⟨rfl, h, id, id, id⟩

theorem setFlow_act (s : State) (p : Pos) (f : Option SealFlow) : StoreAct s (s.setFlow p f) :=
  ⟨rfl, id, id, id, id⟩

theorem addSealDone_act (e : SealDone) (s : State) : StoreAct s (addSealDone e s) := by
  unfold addSealDone
  split
  · rename_i h
    refine ⟨rfl, id, fun _ => ?_, id, id⟩
    have : s.bli.sealDone.length < 24 := h
    simpa using Nat.succ_le_of_lt this
  · exact ⟨rfl, id, id, fun _ => Nat.min_le_right _ _, id⟩

theorem addSealDone?_act (e : Option SealDone) (s : State) : StoreAct s (addSealDone? e s) := by
  cases e
  · exact .refl s
  · exact addSealDone_act ..

theorem startJobs_act (l : List Job) (s : State) : StoreAct s (startJobs l s) := by
  induction l generalizing s with
  | nil => exact setSrs_act id
  | cons j rest ih =>
    unfold startJobs
    split
    · rename_i r j' e
      refine setSrs_act (fun h => ?_)
      exact jobAtStart_canonical (r := { s.srs with queue := j :: rest, running := none }) (r' := r) h e
    · exact ((setSrs_act (r := { s.srs with queue := rest, running := none }) id).trans
        (addSealDone?_act _ _)).trans (ih _)

theorem tryJobs_act (s : State) : StoreAct s (tryJobs s) := by
  unfold tryJobs
  split
  · exact startJobs_act ..
  · exact .refl s

theorem queueJob_act (j : Job) (s : State) : StoreAct s (queueJob j s) :=
  (setSrs_act (r := { s.srs with queue := s.srs.queue ++ [j] }) id).trans (tryJobs_act _)

theorem endJob_act (s : State) : StoreAct s (endJob s) :=
  (setSrs_act (r := { s.srs with running := none }) id).trans (tryJobs_act _)

/-- The building of reports keeps every bound of the store and of its list. -/
theorem buildDue_act (s : State) : StoreAct s (buildDue s) := by
  have h := buildDue_built s
  refine ⟨by rw [h.rest], by rw [buildDue_srs]; exact id, fun x => Nat.le_trans h.sealDone x, ?_, h.room⟩
  rw [h.rest]; exact id

/-- A job's end: the next job is tried and the reports that are due are built. -/
theorem jobOver_act (s : State) : StoreAct s (jobOver s) := (endJob_act s).trans (buildDue_act _)

theorem recordStoreEvent_act (e : StoreEvent) (s : State) : StoreAct s (recordStoreEvent e s) :=
  ⟨rfl, id, id, id, id⟩

/-! ### The wait for a flash operation, and the scan after it (R177) -/

@[simp] theorem Srs.beginScan_contents (r : Srs) : r.beginScan.contents = r.contents := rfl
@[simp] theorem Srs.beginScan_reserved (r : Srs) : r.beginScan.reserved = [] := rfl
@[simp] theorem Srs.beginScan_pointer (r : Srs) : r.beginScan.pointer = r.pointer := rfl
@[simp] theorem Srs.beginScan_nextSeal (r : Srs) : r.beginScan.nextSeal = r.nextSeal := rfl
@[simp] theorem Srs.beginScan_highest (r : Srs) : r.beginScan.highest = r.highest := rfl
@[simp] theorem Srs.beginScan_phase (r : Srs) : r.beginScan.phase = .scanning := rfl
@[simp] theorem Srs.beginScan_queue (r : Srs) : r.beginScan.queue = [] := rfl
@[simp] theorem Srs.beginScan_running (r : Srs) : r.beginScan.running = none := rfl
@[simp] theorem Srs.beginScan_flows (r : Srs) : r.beginScan.flows = r.flows := rfl
@[simp] theorem Srs.beginScan_lastEvent (r : Srs) : r.beginScan.lastEvent = r.lastEvent := rfl

theorem Srs.afterFull_idle {r : Srs} (h : r.running = none) : r.afterFull = Srs.reset r.contents := by
  simp [Srs.afterFull, h]

theorem Srs.afterFull_running {r : Srs} (h : r.running ≠ none) : r.afterFull =
    { Srs.reset r.contents with
      reserved := r.reserved, queue := r.queue, running := r.running, phase := .waiting } := by
  simp [Srs.afterFull, Option.isSome_iff_ne_none, h]

theorem Srs.afterFull_canonical {r : Srs} (h : r.canonical) : r.afterFull.canonical := by
  by_cases e : r.running = none
  · rw [Srs.afterFull_idle e]; exact ⟨h.1, rfl⟩
  · rw [Srs.afterFull_running e]; exact h

theorem endWait_act {s : State} {r : Srs} (h : s.srs.canonical → r.canonical) : StoreAct s (endWait r s) :=
  setSrs_act (r := r.beginScan) (fun c => ⟨(h c).1, rfl⟩)

theorem failedSlot_canonical (j : Job) (k n : Nat) {r : Srs} (h : r.canonical) :
    (failedSlot j k n r).canonical :=
  Srs.noteNumber_canonical (Srs.setReservation_canonical (flashResult_canonical _ _ h) _ _) _ _

theorem recordDone_act (j : Job) (k : Nat) (h : Header) (b : SealBody) (s : State) :
    StoreAct s (recordDone j k h b s) :=
  (setSrs_act (fun c => Srs.noteNumber_canonical
    (Srs.setReservation_canonical (flashResult_canonical true j c) _ _) _ _)).trans (addSealDone_act ..)

theorem recordFailed_act (j : Job) (k : Nat) (h : Header) (b : SealBody) (s : State) :
    StoreAct s (recordFailed j k h b s) := by
  have a : StoreAct s (setSrs (failedSlot j k h.number s.srs) s) :=
    setSrs_act (fun c => failedSlot_canonical j k h.number c)
  unfold recordFailed
  dsimp only
  split
  · exact a.trans (addSealDone_act ..)
  · exact (a.trans (setSrs_act (fun c => Srs.reserve_canonical c _ _))).trans (queueJob_act ..)

theorem recordJobEnd_act (ok : Bool) (j : Job) (k : Nat) (h : Header) (b : SealBody) (s : State) :
    StoreAct s (recordJobEnd ok j k h b s) := by
  unfold recordJobEnd
  split
  · refine StoreAct.trans ?_ (jobOver_act _)
    split
    · exact recordDone_act ..
    · exact recordFailed_act ..
  · exact endWait_act (fun c => flashResult_canonical ok j c)

theorem bodyJobEnd_act (ok : Bool) (s : State) : StoreAct s (bodyJobEnd ok s) := by
  unfold bodyJobEnd
  split
  · exact recordJobEnd_act ..
  · exact .refl s

theorem fullRecordJobEnd_act (ok : Bool) (s : State) : StoreAct s (fullRecordJobEnd ok s) := by
  unfold fullRecordJobEnd
  split
  · exact recordJobEnd_act ..
  · exact .refl s

theorem collectJobEnd_act (l : List Nat) (s : State) : StoreAct s (collectJobEnd l s) := by
  unfold collectJobEnd
  repeat' split
  · exact ((setSrs_act (runActs_canonical _)).trans (recordStoreEvent_act ..)).trans (jobOver_act _)
  · exact endWait_act (runActs_canonical _)
  · exact .refl s

theorem eraseJobEnd_act (ok : Bool) (s : State) : StoreAct s (eraseJobEnd ok s) := by
  unfold eraseJobEnd
  split
  · split
    · refine StoreAct.trans (StoreAct.trans ?_ (recordStoreEvent_act _ _)) (jobOver_act _)
      exact setSrs_act (fun c => flashResult_canonical _ _ c)
    · exact endWait_act (fun c => flashResult_canonical _ _ c)
  · exact .refl s

theorem scanned_canonical {r : Srs} (h : r.canonical) : r.scanned.canonical := by
  unfold Srs.scanned
  generalize r.highestSlot = x
  cases x with
  | none => exact ⟨h.1, h.2⟩
  | some y =>
    generalize r.pointerFrom y.2 = k
    exact ⟨h.1, h.2⟩

theorem scanDone_act (s : State) : StoreAct s (scanDone s) := by
  have k := fun c => scanned_canonical (r := s.srs) c
  unfold scanDone
  generalize s.srs.scanned = r at k ⊢
  split
  · exact ((setSrs_act k).trans (recordStoreEvent_act .scanDone (setSrs r s))).trans (buildDue_act _)
  · exact .refl s

theorem retryHeader_act (h : Header) (s : State) : StoreAct s (retryHeader h s) :=
  ((setSrs_act (fun c => Srs.reserve_canonical c _ _)).trans (setFlow_act ..)).trans (queueJob_act ..)

theorem storeCollectActs_act (n : Word32) (s : State) : StoreAct s (storeCollectActs n s).1 := by
  unfold storeCollectActs
  repeat' split
  · exact .refl s
  · exact .refl s
  · exact queueJob_act ..

theorem storeEraseActs_act (b : Byte) (s : State) : StoreAct s (storeEraseActs b s).1 := by
  unfold storeEraseActs
  repeat' split
  all_goals first
    | exact .refl s
    | exact queueJob_act ..

end Sys2Proof.Machine
end

