-- ==== Sys2Proof/Tests/Slice0.lean ====
section
/-! SUPPORT. Small tests of the model: the well-formedness check, worked examples of the spec, cells written out
by hand, and for each claim with conditions a state and operands that meet them. -/

namespace Sys2Proof.Tests

open Sys2Proof Sys2Proof.Machine Sys2Proof.Safety

/-! ### States the tests speak of -/

/-- A module out of power-on whose start-up scan is over. -/
def calm : State := { State.reset with srs := { State.reset.srs with phase := .over } }

/-- Meter constants and a line with the filter on and the rising edge, for position 1. -/
def load1 : LoadRecord :=
  { position := 1, cmut := 1000000, line := 2, deadTime := 0, gainWidth := 12, gainUnit := 1526, phaseWidth := 12,
    phaseUnit := 5000, carried := 0, gain := 0, phase := 0 }

/-- A loaded record in a life-cycle state. -/
def record (x : PosState) : PositionRecord := { freshRecord load1 .rising with state := x }

/-- An ERROR step of three gates of ten pulses, IMMEDIATE. -/
def errorStep : StepRecord :=
  { kind := 0, trigger := 0, delay := 0, cref := 200000000, refEdge := 0, gateMode := 0, gateArg := 10, gates := 3,
    warmUp := 1, extra := 1, noise := 0, lower := BitVec.ofInt 32 (-5000), upper := 5000, spread := 100,
    timeout := 60000, tangent := 1732, clock := 0, divisor := 1, window := 1000, allowance := 1, unit := 1000,
    digits := 8, settle := 0 }

/-- The plan of the tests: slot 0 ERROR, 1 CREEP, 2 START, 3 REGISTER with settle 0, 4 ERROR on SYNC_EDGE, 5 ERROR
with a delay on SOURCE_READY, 6 REGISTER with a settle, 7 REGISTER on SYNC_EDGE. -/
def plan : Vector (Option StepRecord) 32 :=
  (Vector.replicate 32 none)
    |>.set 0 (some errorStep)
    |>.set 1 (some { errorStep with kind := 1 })
    |>.set 2 (some { errorStep with kind := 2 })
    |>.set 3 (some { errorStep with kind := 3, clock := 1 })
    |>.set 4 (some { errorStep with trigger := 1 })
    |>.set 5 (some { errorStep with trigger := 2, delay := 20 })
    |>.set 6 (some { errorStep with kind := 3, clock := 1, settle := 30 })
    |>.set 7 (some { errorStep with kind := 3, clock := 1, trigger := 1 })

/-- A state with that plan. -/
def planned (s : State) : State := { s with psc := { s.psc with plan := plan } }

/-- A planned module with positions 1 and 2 in a life-cycle state, and no step. -/
def bench (x : PosState) : State := planned ((calm.setPos 0 (record x)).setPos 1 (record x))

/-- The same with the step of a slot in a step state, for some positions. -/
def during (n : Fin 32) (x : StepState) (running : List Pos) : State :=
  let s := bench .loaded
  { s with psc := { s.psc with active := some { slot := n, run := 7 }, stepState := x, running := running } }

/-- A template with a body. -/
def template : TemplateRecord := { timeout := 100, offset := 0, length := 2, encoding := 0, body := [0x2F] }

/-- A module whose two templates have a body. -/
def templated (s : State) : State :=
  { s with pch := { s.pch with identify := template, registerRead := { template with encoding := 1 } } }

/-- A received character whose parity bit is 0, with a good stop bit, right behind the one before it. -/
def rx (b : Byte) : RxChar := { byte := b, parity := false, stop := true, idle := 0 }

/-- What an event or a command makes of a state. -/
def after (i : Instr) (s : State) : State :=
  match exec i s with
  | .next t => t
  | _ => s

/-! ### Facts that bring conditions within reach of evaluation -/

theorem served_of_empty {s : State} (h : ∀ p, (s.chan p).internal = none ∧ (s.chan p).relay = .empty) : Served s :=
  fun p _ => ⟨(h p).1, fun r hr => by rw [(h p).2] at hr; cases hr⟩

theorem noReads_of_none {s : State} (h : ∀ p, (s.chan p).internal = none ∧ (s.chan p).transaction = none) :
    NoReads s :=
  fun p => ⟨by rw [(h p).1]; rfl, by rw [(h p).2]; rfl⟩

theorem nothingWaits_of_empty {s : State} {p : Pos}
    (h : (s.chan p).internal = none ∧ (s.chan p).relay = .empty) : NothingWaits s p :=
  ⟨h.1, fun r hr => by rw [h.2] at hr; cases hr⟩

/-! ### Well-formed terms -/

theorem test_reply_needs_a_character :
    (Instr.replyEnd 0 []).wf = false ∧ (Instr.replyEnd 0 [rx 6]).wf = true := by decide

theorem test_collect_marks_name_slots :
    (Instr.collectJobEnd [1024]).wf = false ∧ (Instr.collectJobEnd [0, 1023]).wf = true := by decide

theorem test_up_cell_length :
    (Instr.upCellReceived (List.replicate 259 0)).wf = false ∧
      (Instr.upCellReceived (List.replicate 258 0)).wf = true := by
  rw [Instr.wf, Instr.wf, List.length_replicate, List.length_replicate]; decide

theorem test_down_cell_length :
    (Instr.downCellReceived (List.replicate 259 0)).wf = false ∧
      (Instr.downCellReceived (List.replicate 258 0)).wf = true := by
  rw [Instr.wf, Instr.wf, List.length_replicate, List.length_replicate]; decide

theorem test_template_fits_a_cell :
    { template with body := List.replicate 244 0 }.fits = false ∧
      { template with body := List.replicate 243 0 }.fits = true ∧
      ∀ r : TemplateRecord, (Instr.templateWrite 1 0 r).wf = r.fits := by
  rw [TemplateRecord.fits, TemplateRecord.fits, List.length_replicate, List.length_replicate]
  exact ⟨by decide, by decide, fun _ => rfl⟩

theorem test_step_list_fits_a_cell :
    (Instr.verifyEvaluate 1 1 (List.replicate 248 0)).wf = false ∧
      (Instr.verifyEvaluate 1 1 (List.replicate 247 0)).wf = true := by
  rw [Instr.wf, Instr.wf, List.length_replicate, List.length_replicate]; decide

theorem test_frame_fits_a_cell :
    (Instr.port 1 1 (List.replicate 250 0)).wf = false ∧ (Instr.port 1 1 (List.replicate 249 0)).wf = true := by
  rw [Instr.wf, Instr.wf, List.length_replicate, List.length_replicate]; decide

/-! ### Worked examples of the spec -/

/-- The cases of 5.2.1. -/
theorem test_gate_error_cases :
    gateError 10 200000000 1995012 1000000 = (2500, false) ∧
      gateError 10 200000000 2010000 1000000 = (-4975, false) ∧
      gateError 10 200000000 1995012 1000 = (999999, true) := by decide

/-- The cases of 5.3.1, the clamping one among them. -/
theorem test_auto_gate_length_cases :
    autoGateLength 1000000 250000 200000000 = (2, false) ∧ autoGateLength 1000000 10000000 200000000 = (50, false) ∧
      autoGateLength 4000000000 4000000000 1000 = (65535, true) := by decide

/-- Rounding of halves away from zero (5.2.1, case 4). -/
theorem test_halves_round_away_from_zero : roundDivPos (-25) 10 = -3 ∧ roundDivPos 25 10 = 3 := by decide

/-- Rows 2, 3 and 5 of 5.4.1. -/
theorem test_statistics_cases :
    stepStatistics 7361 (some (2350, 2511)) 3 = some (2454, 161) ∧ errorVerdict errorStep 2454 161 = .unstable ∧
      stepStatistics 15004 (some (4996, 5010)) 3 = some (5001, 14) ∧ errorVerdict errorStep 5001 14 = .fail ∧
      stepStatistics (-15001) (some (-5001, -5000)) 3 = some (-5000, 1) ∧ errorVerdict errorStep (-5000) 1 = .pass := by
  decide

/-- The REGISTER step of 5.5.1. -/
def registerStep : StepRecord :=
  { errorStep with
    kind := 3, clock := 1, divisor := 1000, window := 200000, unit := 10000, digits := 7,
    lower := BitVec.ofInt 32 (-20000), upper := 20000 }

/-- Cases 1, 2, 3 and 4 of 5.5.1. -/
theorem test_register_cases :
    registerErrorOf registerStep 12345 12446 = (10000, false) ∧ registerDifference 7 9999990 91 = 101 ∧
      registerErrorOf registerStep 500 599 = (-10000, false) ∧ registerVerdict registerStep (-10000) = .pass ∧
      registerErrorOf registerStep 4321 4321 = (-999999, true) ∧ registerVerdict registerStep (-999999) = .fail := by
  decide

/-- Cases 1, 2, 4 and 5 of 7.1.1. -/
theorem test_correction_cases :
    gainTarget 0 2500 1526 = -164 ∧ phaseTarget 0 2500 3366 1732 5000 = -10 ∧
      phaseTarget 0 2500 1634 (-1732) 5000 = -10 ∧ gainTarget 0 3 200 = -2 ∧ gainTarget 0 (-3) 200 = 2 ∧
      clampWord 8 (-164) = (-128, true) := by decide

/-- The frame and the reply of 8.3.1: SUM8 from byte 1, four bytes of two digits at offset 2. -/
theorem test_register_read_frame :
    withChecksum .sum8 1 [0x01, 0x52, 0x31] = [0x01, 0x52, 0x31, 0x83] ∧
      extractedReading { timeout := 100, offset := 2, length := 4, encoding := 1, body := [0x01, 0x52, 0x31] } 7
        { Profile.default with checksum := .sum8, start := 1 }
        { bytes := [0x06, 0x01, 0x00, 0x01, 0x23, 0x45, 0x6A], truncated := false, charError := false } =
        some 12345 := by decide

/-- The words −164 and −10, and the −163 of 9.8, as a frame carries them. -/
theorem test_words_in_frames : intBytes 2 (-163) = [0xFF, 0x5D] ∧ intBytes 2 (-10) = [0xFF, 0xF6] := by decide

/-- The check value of the polynomial of R181 with start FFFFh: the digits 1 to 9 give 29B1h. -/
theorem test_crc_check_value :
    crc16 [0x31, 0x32, 0x33, 0x34, 0x35, 0x36, 0x37, 0x38, 0x39] = 0x29B1 := by decide +kernel

/-! ### Cells written out from 11.1, 11.6 and 11.7 -/

theorem test_cell_bytes_of_status_read :
    Cell.bytes { dest := 1, source := 0, kind := 0x01, tag := 9, payload := [] } =
      [0xC5, 0x01, 0x00, 0x01, 0x09, 0x00, 0x36, 0xF5] := by decide +kernel

theorem test_status_read_cell_is_answered :
    ((after (.upCellReceived [0xC5, 0x01, 0x00, 0x01, 0x09, 0x00, 0x36, 0xF5]) calm).bli.answers.map
      (fun a => (a.cell.tag, a.cell.payload.length))) = [(9, 44)] := by decide +kernel

theorem test_module_commands_decode :
    decodeCommand 0x01 9 [] = some (.statusRead 9) ∧ decodeCommand 0x02 9 [5, 1] = some (.settingsWrite 9 5 1) ∧
      decodeCommand 0x04 9 [0] = some (.moduleResetRun (.addressed 9)) ∧
      decodeCommand 0x04 9 [1] = some (.moduleResetFull 9) ∧ decodeCommand 0x04 9 [2] = none ∧
      decodeCommand 0x7F 9 [1] = some (.unknownKind 9) ∧ decodeCommand 0x01 9 [1] = none := by decide

theorem test_port_setting_commands_decode :
    decodeCommand 0x10 9 [0x00, 0x67, 0x08, 0x00, 0x01, 0x00, 0x23, 0x01, 0x03, 0x02] = some (.profileWrite 9
        { divisor := 103, dataBits := 8, parity := 0, stopBits := 1, gap := 35, codeAt := 1, checksum := 3,
          start := 2 }) ∧
      decodeCommand 0x12 9 [0x01, 0x01, 0xF4, 0x02, 0x04, 0x01, 0x03, 0x01, 0x52, 0x31] = some (.templateWrite 9 1
        { timeout := 500, offset := 2, length := 4, encoding := 1, body := [0x01, 0x52, 0x31] }) ∧
      decodeCommand 0x14 9 [0x08, 0x01] = some (.identify 9 0x0801) := by decide

theorem test_rule_write_decodes :
    decodeCommand 0x18 9
        [0x02, 0x01, 0x57, 0x10, 0x00, 0xFF, 0x02, 0x03, 0x01, 0x64, 0x02, 0x03, 0x00, 0x00, 0x05, 0x01, 0x01, 0x01,
          0x04, 0x06] =
      some (.ruleWrite 9 2
        { enabled := 1, value := 0x5710, mask := 0x00FF, action := 2, allowed := 3, expectReply := 1, timeout := 100,
          patchCount := 2, patch1 := { offset := 3, source := 0, order := 0 },
          patch2 := { offset := 5, source := 1, order := 1 }, ackPresent := 1, ackOffset := 4, ackByte := 6 }) := by
  decide

theorem test_plan_write_decodes :
    decodeCommand 0x20 9
        [0x1F, 0x00, 0x02, 0x01, 0x02, 0x0B, 0xEB, 0xC2, 0x00, 0x01, 0x01, 0x00, 0x0F, 0x42, 0x40, 0x03, 0x01, 0x02,
          0x04, 0xFF, 0xFF, 0xEC, 0x78, 0x00, 0x00, 0x13, 0x88, 0x00, 0x00, 0x00, 0x64, 0x00, 0x00, 0xEA, 0x60, 0xF9,
          0x3C, 0x01, 0x00, 0x03, 0xE8, 0x00, 0x03, 0x0D, 0x40, 0x05, 0x00, 0x00, 0x27, 0x10, 0x07, 0x00, 0x1E] =
      some (.planWrite 9 31
        { kind := 0, trigger := 2, delay := 258, cref := 200000000, refEdge := 1, gateMode := 1, gateArg := 1000000,
          gates := 3, warmUp := 1, extra := 2, noise := 4, lower := BitVec.ofInt 32 (-5000), upper := 5000,
          spread := 100, timeout := 60000, tangent := BitVec.ofInt 16 (-1732), clock := 1, divisor := 1000,
          window := 200000, allowance := 5, unit := 10000, digits := 7, settle := 30 }) := by decide

theorem test_position_load_decodes :
    decodeCommand 0x30 9
        [0x01, 0x00, 0x0F, 0x42, 0x40, 0x02, 0x00, 0xC8, 0x0C, 0x00, 0x05, 0xF6, 0x0B, 0x00, 0x13, 0x88, 0x03, 0x00,
          0x28, 0xFF, 0xF6] =
      some (.positionLoad 9
        { position := 1, cmut := 1000000, line := 2, deadTime := 200, gainWidth := 12, gainUnit := 1526,
          phaseWidth := 11, phaseUnit := 5000, carried := 3, gain := 40, phase := BitVec.ofInt 16 (-10) }) := by decide

theorem test_step_and_position_commands_decode :
    decodeCommand 0x24 9 [0x1F, 0x01, 0x02, 0x03, 0x04] = some (.stepRun (.addressed 9) 31 0x01020304) ∧
      decodeBroadcast 0x25 [0x02, 0x00, 0x00, 0x00, 0x07] = some (.stepQueue .broadcast 2 7) ∧
      decodeBroadcast 0x04 [1] = none ∧ decodeCommand 0x32 9 [12, 0] = some (.positionIncludeOff 9 12) ∧
      decodeCommand 0x34 9 [12, 31] = some (.resultRead 9 12 31) ∧
      decodeCommand 0x38 9 [0x00, 0x03, 0x02, 0x00, 0x09] = some (.correctionCompute 9 3 2 none) ∧
      decodeCommand 0x39 9 [0x00, 0x03, 0x02, 0x05, 0x04] = some (.verifyEvaluate 9 3 [5, 4]) := by decide

theorem test_frame_and_store_commands_decode :
    decodeCommand 0x40 9 [0x02, 0x01, 0x57] = some (.port 9 2 [0x01, 0x57]) ∧
      decodeCommand 0x49 9 [0x03, 0xFF] = some (.storeRead 9 1023) ∧
      decodeCommand 0x4A 9 [0x00, 0x00, 0x01, 0x02] = some (.storeCollect 9 258) ∧
      decodeCommand 0x4B 9 [63] = some (.storeErase 9 63) := by decide

theorem test_table_words_spell_nothing (n w : Nat) :
    decodeTableWord n w = none ∧ State.reset.withFetchWord n w = State.reset := ⟨rfl, rfl⟩

/-! ### States and operands that meet the conditions of the claims

Each theorem is named for the claim whose conditions it shows met; where a claim has clauses, its parts follow their
order. -/

/-- An answer cell to fill the queue with. -/
def someAnswer : OutCell := { cell := answerTo calm 1 [0], actsFull := false }

/-- A state with so many answers queued. -/
def withAnswers (n : Nat) (s : State) : State := { s with bli := { s.bli with answers := List.replicate n someAnswer } }

/-- A state with a FULL reset waiting for its answer, which the UP transmitter is sending. -/
def fullWaits : State :=
  { calm with bli := { calm.bli with fullPending := true, txUp := some (sentCell { someAnswer with actsFull := true }) } }

/-- A state in which a flash job runs. -/
def working (j : Job) (s : State) : State := { s with srs := { s.srs with running := some j } }

/-- The header of seal number 5 for position 1 of module 1. -/
def header5 : Header := { number := 5, pos := 0, address := 1 }

theorem canonical_reset : StoreCanonical State.reset := ⟨rfl, rfl⟩

theorem awake_calm : Awake calm := ⟨by decide, by decide, rfl⟩

theorem ready_calm : Ready calm := ⟨awake_calm, by decide⟩

theorem ready_bench (x : PosState) : Ready (bench x) := ⟨awake_calm, show 0 < 8 by decide⟩

theorem ready_during (n : Fin 32) (x : StepState) (l : List Pos) : Ready (during n x l) :=
  ⟨awake_calm, show 0 < 8 by decide⟩

/-- A microsecond before a tick: line 1 went high one sample ago, a timer counts MS, a monitor is armed, and position 2
waits for a reply. -/
def beforeTick : State :=
  let s := bench .loaded
  let t := s.setLine 0 { s.line 0 with level := true, newest := true }
  let wait : Transaction :=
    { owner := .identify template, frame := [], expectReply := true, timeout := 3, profile := Profile.default }
  let u := t.setChan 1 { Channel.idle with state := .awaitReply wait 1 }
  { u with piu := { u.piu with
      micros := 999, monitor := .armed 5,
      timer := { WindowTimer.stopped with counting := true, count := 3, matchValue := 4 } } }

theorem witness_IdleStepActsOrTicks :
    ((withAnswers 1 calm).pending = [] ∧ dueActs (withAnswers 1 calm) ≠ []) ∧
      (calm.pending = [] ∧ dueActs calm = [] ∧ FiltersFit calm) ∧
      (beforeTick.pending = [] ∧ dueActs beforeTick = [] ∧ FiltersFit beforeTick) ∧
      1039 < (levelsOf Profile.default 0x55).length * (Profile.default.divisor + 1) ∧
      ({ Channel.idle with wire := [sentChar Profile.default 0x55] } : Channel).wire =
        { sentChar Profile.default 0x55 with
          left := (levelsOf Profile.default 0x55).length * (Profile.default.divisor + 1) - 0 } :: [] ∧
      ({ Channel.idle with wire := [{ sentChar Profile.default 0x55 with left := 1 }] } : Channel).wire =
        { sentChar Profile.default 0x55 with
          left := (levelsOf Profile.default 0x55).length * (Profile.default.divisor + 1) - 1039 } :: [] := by
  unfold FiltersFit filterFits
  decide +kernel

/-- The tick ends the window timer's use, raises the quiet time and the wait, and the second high sample is an edge at
microsecond 1000 (R2, R11, R13, R139). -/
theorem test_millisecond_tick :
    ∃ t, step beforeTick = .next t ∧ t.piu.monitor = .armed 6 ∧ t.piu.timer.counting = false ∧
      t.psc.raised = [(.none, 0)] ∧ (t.line 0).lastAccepted = some 1000 ∧
      (match (t.chan 1).state with | .awaitReply _ w => w | _ => 0) = 2 := by
  refine ⟨_, rfl, ?_⟩
  decide +kernel

/-- A header act, done or torn, and a slot no act works on. -/
theorem witness_PowerOnResetsEveryBlock :
    StoreCanonical (working (.header 5 header5) calm) ∧
      (working (.header 5 header5) calm).srs.running = some (.header 5 header5) ∧
      ∀ j, (working (.header 5 header5) calm).srs.running = some j → ∀ a ∈ jobActs calm.srs j, a.slot ≠ 1023 :=
  ⟨canonical_reset, rfl, fun j h => by cases h; decide⟩

theorem witness_FullResetIsAnsweredThenActs :
    Ready calm ∧ (∃ x, fullWaits.bli.txUp = some x ∧ x.out.actsFull = true) ∧
      fullWaits.srs.running = none ∧
      ((∃ x, (working (.erase 3) fullWaits).bli.txUp = some x ∧ x.out.actsFull = true) ∧
        (working (.erase 3) fullWaits).srs.running ≠ none) ∧
      ∀ x, (withAnswers 8 calm).bli.txUp = some x → x.out.actsFull = false :=
  ⟨ready_calm, ⟨_, rfl, rfl⟩, rfl, ⟨⟨_, rfl, rfl⟩, by decide⟩, fun _ h => by cases h⟩

/-- A FULL reset that waits behind its answer does not act before the answer is sent (R187). -/
theorem test_full_reset_waits_for_its_answer :
    (after .fullResetAct (after (.moduleResetFull 1) calm)).bli.fullPending = true ∧
      (after .fullResetAct fullWaits).bli.fullPending = false := by decide +kernel

/-- An addressed and a broadcast RUN reset, in a step and without one. -/
theorem witness_RunResetActs :
    Takes (.addressed 1) (during 0 .running [0, 1]) ∧ Takes .broadcast (withAnswers 8 calm) ∧
      StepsConsistent (during 0 .running [0, 1]) ∧ (during 0 .running [0, 1]).stepActive = true ∧
      (during 0 .running [0, 1]).psc.active = some { slot := 0, run := 7 } ∧
      (0 : Pos) ∈ (during 0 .running [0, 1]).psc.running ∧ (∀ r, ¬ RelayWork (during 0 .running [0, 1]) 0 r) ∧
      (2 : Pos) ∉ (during 0 .running [0, 1]).psc.running ∧ StepsConsistent (withAnswers 8 calm) ∧
      (withAnswers 8 calm).stepActive = false := by
  have idle : (during 0 .running [0, 1]).chan 0 = Channel.idle := rfl
  refine ⟨ready_during 0 .running [0, 1], awake_calm, ⟨rfl, fun h => by cases h⟩, rfl, rfl, by decide, ?_, by decide,
    ⟨rfl, fun _ => rfl⟩, rfl⟩
  rintro r (⟨t, h, _⟩ | h) <;> rw [idle] at h <;> cases h

/-- A full queue; seven answers with one owed, and none with eight owed; a FULL reset that waits. -/
theorem witness_CommandsNotTaken :
    Awake (withAnswers 8 calm) ∧ 8 ≤ (withAnswers 8 calm).bli.answers.length ∧
      (encodeCommand (.port 1 1 [])).isSome = true ∧
      (8 ≤ (withAnswers 7 calm).bli.answers.length + (owing (withAnswers 7 calm)).bli.owed) ∧
      fullWaits.bli.fullPending = true ∧ (encodeCommand (.statusRead 1)).isSome = true := ⟨awake_calm, by decide⟩

/-- During the scan and after it; trim limits at their ends and beyond them. -/
theorem witness_StatusAndSettingsCommands :
    Ready State.reset ∧ State.reset.srs.phase ≠ .over ∧ Ready calm ∧ calm.srs.phase = .over ∧
      (1 ≤ (1 : Byte).toNat ∧ (7 : Byte).toNat ≤ 7) ∧
      ((0 : Byte).toNat = 0 ∧ 7 < (8 : Byte).toNat ∧ 1 < (2 : Byte).toNat) :=
  ⟨⟨awake_calm, by decide⟩, by decide, ready_calm, rfl, by decide⟩

/-- A bench position with an entry of step 31. -/
def entered : State :=
  (bench .trimmed).setPos 11 { record .trimmed with
    results := (record .trimmed).results.set 31 (some {
      verdict := .pass, runId := 7, saturated := false, nClamped := true, fields := .creep 1 }) }

theorem witness_PositionAndResultRead :
    Ready entered ∧ ((0 : Byte).toNat = 0 ∧ 12 < (13 : Byte).toNat ∧ 31 < (32 : Byte).toNat) ∧
      (entered.pos 11).results[(30 : Fin 32).val] = none ∧ (∃ e,
        (entered.pos 11).results[(31 : Fin 32).val] = some e) :=
  ⟨⟨awake_calm, by decide⟩, by decide, by decide, _, rfl⟩

/-- The default profile as a record. -/
def profile : ProfileRecord :=
  { divisor := 103, dataBits := 8, parity := 0, stopBits := 1, gap := 35, codeAt := 1, checksum := 0, start := 0 }

/-- The ends of the ranges of 8.1, a value past one, a reading phase, and a template of each kind. -/
theorem witness_ProfileAndTemplateCommands :
    ProfileLegal { profile with divisor := 4095, gap := 1000, codeAt := 62, checksum := 3, start := 15, parity := 2 } ∧
      ProfileLegal { profile with divisor := 0, gap := 11, codeAt := 0, dataBits := 7 } ∧
      ¬ ProfileLegal { profile with gap := 10 } ∧ Ready (during 3 .readBefore [0]) ∧
      (during 3 .readBefore [0]).readingPhase = true ∧ Profile.default.checksum.code ≠ (1 : Byte) ∧
      (Profile.default.checksum.code = profile.checksum ∧ Profile.default.start = profile.start.toNat) ∧
      calm.readingPhase = false ∧
      TemplateLegal 0 template ∧ TemplateLegal 1 { template with encoding := 3, length := 16, timeout := 2550 } ∧
      ¬ TemplateLegal 1 template ∧ 1 < (2 : Byte).toNat := by
  refine ⟨?_, ?_, ?_, ready_during 3 .readBefore [0], rfl, by decide, by decide, rfl, ?_, ?_, ?_, by decide⟩
  · unfold ProfileLegal; decide
  · unfold ProfileLegal; decide
  · unfold ProfileLegal; decide
  · exact .inr (by decide)
  · exact .inr (by decide)
  · unfold TemplateLegal; decide

theorem witness_ProfileRead :
    ProfileIs calm.pch.profile profile ∧ profile.stopBits = 1 ∧ profile.dataBits = 8 :=
  ⟨⟨rfl, rfl, rfl, rfl, rfl, rfl, rfl⟩, rfl, rfl⟩

/-- A TRIM_WRITE rule with a GAIN patch and a PHASE patch beside it. -/
def trimRecord : RuleRecord :=
  { enabled := 1, value := 0x5710, mask := 0, action := 2, allowed := 3, expectReply := 1, timeout := 100,
    patchCount := 2, patch1 := { offset := 3, source := 0, order := 0 },
    patch2 := { offset := 5, source := 1, order := 0 }, ackPresent := 1, ackOffset := 0, ackByte := 6 }

/-- A legal record with two patches and an ack test, one without either at the ends of its ranges, and a refused
one. -/
theorem witness_RuleCommands :
    Ready calm ∧ RuleLegal trimRecord ∧
      RuleLegal { trimRecord with
        action := 0, patchCount := 0, ackPresent := 0, timeout := 255, allowed := 15, expectReply := 0 } ∧
      ¬ RuleLegal { trimRecord with timeout := 0 } ∧ 15 < (16 : Byte).toNat :=
  ⟨ready_calm,
    { flags := by decide, codes := by decide, first := fun _ => ⟨by decide, by decide, .inr (.inl ⟨.inl rfl, rfl⟩)⟩,
      second := fun _ => ⟨by decide, by decide, .inr (.inl ⟨.inr rfl, rfl⟩)⟩, apart := fun _ => by decide,
      gain := fun _ => .inl ⟨by decide, rfl⟩, replies := fun _ => ⟨rfl, rfl⟩ },
    { flags := by decide, codes := by decide, first := fun h => absurd h (by decide),
      second := fun h => absurd h (by decide), apart := fun h => absurd h (by decide),
      gain := fun h => absurd h (by decide), replies := fun h => absurd h (by decide) },
    fun h => absurd h.codes (by decide), by decide⟩

theorem legal_error_step : StepLegal errorStep :=
  ⟨by decide, show LimitsLegal errorStep ∧ GatesLegal errorStep by unfold LimitsLegal GatesLegal; decide⟩

theorem legal_creep_step : StepLegal { errorStep with kind := 1, allowance := 15 } :=
  ⟨by decide, show WindowLegal errorStep ∧ (15 : Byte).toNat ≤ 15 from ⟨⟨.inl rfl, by decide⟩, by decide⟩⟩

theorem legal_start_step : StepLegal { errorStep with kind := 2 } :=
  ⟨by decide, show WindowLegal errorStep from ⟨.inl rfl, by decide⟩⟩

theorem legal_register_step : StepLegal registerStep :=
  ⟨by decide,
    show LimitsLegal registerStep ∧ WindowLegal registerStep ∧ registerStep.clock = 1 ∧
        1 ≤ registerStep.unit.toNat ∧ registerStep.unit.toNat ≤ 1000000 ∧ 1 ≤ registerStep.digits.toNat ∧
        registerStep.digits.toNat ≤ 12 by unfold LimitsLegal WindowLegal; decide⟩

theorem illegal_step : ¬ StepLegal { errorStep with gates := 17 } := fun h =>
  have h2 : LimitsLegal { errorStep with gates := 17 } ∧ GatesLegal { errorStep with gates := 17 } := h.2
  absurd h2.2.2.2.1 (by decide)

/-- The slot of the active step and one beside it, a slot past the plan, an unknown kind, a full and an EMPTY slot; the
records are those above. -/
theorem witness_PlanCommands :
    Ready (during 0 .running [0]) ∧ SlotProtected (during 0 .running [0]) 0 ∧
      ¬ SlotProtected (during 0 .running [0]) 31 ∧
      31 < (32 : Byte).toNat ∧ 3 < (4 : Byte).toNat ∧ (during 0 .running [0]).psc.plan[(31 : Fin 32).val] = none ∧
      ∃ r, (during 0 .running [0]).psc.plan[(1 : Fin 32).val] = some r := by
  refine ⟨ready_during _ _ _, .inl ⟨_, rfl, rfl⟩, ?_, by decide, by decide, by decide, _, rfl⟩
  rintro (⟨r, h, h2⟩ | ⟨r, h, _⟩) <;> cases h
  exact absurd h2 (by decide)

/-- A step record in slot 0, active in a step state for some positions. -/
def stepOf (r : StepRecord) (x : StepState) (running : List Pos) : State :=
  let s := during 0 x running
  { s with psc := { s.psc with plan := s.psc.plan.set 0 (some r) } }

/-- A state with a step queued behind the active one: slot 4, an ERROR step on SYNC_EDGE. -/
def queuing (s : State) : State := { s with psc := { s.psc with queued := some { slot := 4, run := 8 } } }

/-- A state whose window timer counts a use. -/
def timed (use : TimerUse) (s : State) : State :=
  { s with
    psc := { s.psc with timerUse := use, useNo := 3 },
    piu := { s.piu with timer := { WindowTimer.stopped with counting := true, count := 4, matchValue := 5 } } }

/-- A state in which an expiry was raised for the current start of a use. -/
def expired (use : TimerUse) (s : State) : State :=
  { s with psc := { s.psc with timerUse := use, useNo := 3, raised := [(use, 3)] } }

/-- A state with one position in a life-cycle state, with a write in flight. -/
def writing (w : WriteInFlight) (s : State) : State := s.setPos 0 { s.pos 0 with inFlight := w }

/-- A state with a channel of position 1. -/
def withChan (c : Channel) (s : State) : State := s.setChan 0 c

/-- A state with a register context of position 1 that holds a first reading. -/
def reading (x : ReadState) (s : State) : State := s.setReg 0 (some { read := x, r0 := some 500, r1 := none })

theorem served_during (n : Fin 32) (x : StepState) (l : List Pos) : Served (during n x l) :=
  served_of_empty (s := during n x l) (show ∀ p, (calm.chan p).internal = none ∧ (calm.chan p).relay = .empty by decide)

theorem noReads_during (n : Fin 32) (x : StepState) (l : List Pos) : NoReads (during n x l) :=
  noReads_of_none (s := during n x l)
    (show ∀ p, (calm.chan p).internal = none ∧ (calm.chan p).transaction = none by decide)

theorem not_eligible_of_false {s : State} (h : ∀ p, eligible (s.pos p) = false) : ∀ p, ¬ Eligible (s.pos p) := by
  rintro p ⟨a, b, c⟩
  have := h p
  rcases c with c | c | c <;> simp [eligible, a, b, c] at this

theorem eligible_record : Eligible (record .loaded) := ⟨rfl, rfl, .inl rfl⟩

/-- The ends of the ranges of 2.1, a value past one; the states that refuse a load; an EMPTY position and loaded ones
whose kept gain word fits its new width, or does not. -/
theorem witness_PositionLoadJudgedAndTaken :
    Ready calm ∧ ((0 : Byte).toNat = 0 ∧ 12 < (13 : Byte).toNat ∧ ¬ LoadLegal { load1 with gainWidth := 17 }) ∧
      LoadLegal load1 ∧ load1.position = BitVec.ofNat 8 ((0 : Pos).val + 1) ∧
        EdgeSelect.rising.code = load1.line.toNat / 4 ∧
      LoadLegal { load1 with
        cmut := 4000000000, line := 11, gainWidth := 4, phaseWidth := 16, gainUnit := 1000000, carried := 1, gain :=
          7 } ∧
      ((bench .sealed).pos 0).state = .sealed ∧ ((writing .trim (bench .loaded)).pos 0).inFlight = .trim ∧
      (0 : Pos) ∈ (during 0 .running [0]).psc.running ∧ (calm.pos 0).state = .empty ∧ (calm.pos 0).inFlight ≠ .trim ∧
      (0 : Pos) ∉ calm.psc.running ∧ ((bench .verified).pos 0).state = .verified ∧
      KeptWordsFit load1 (record .verified) ∧
      ¬ KeptWordsFit { load1 with gainWidth := 4 } { record .verified with gain := 40 } := by
  refine ⟨ready_calm, ⟨by decide, by decide, fun h => absurd h.widths (by decide)⟩, ?_, by decide, by decide, ?_,
      by decide,
    by decide, by decide, by decide, by decide, by decide, by decide, ?_, ?_⟩
  · exact ⟨by decide, by decide, by decide, by decide, by decide, fun h => absurd h (by decide),
      fun h => absurd h (by decide)⟩
  · exact ⟨by decide, by decide, by decide, by decide, by decide, fun _ => ⟨by decide, by decide⟩,
      fun h => absurd h (by decide)⟩
  · exact ⟨fun _ => ⟨by decide, by decide⟩, fun _ => ⟨by decide, by decide⟩⟩
  · exact fun h => absurd (h.1 (by decide)).2 (by decide)

/-- A relay request of a kind, with a reply expected or not, sendable or not. -/
def request (k : RelayKind) (reply sendable : Bool) : RelayRequest :=
  { tag := 3, frame := [1, 0x57, 0x10], sendable := sendable, expectReply := reply, timeout := 500, kind := k,
    ack := some { offset := 0, expected := 6 } }

/-- An IDENTIFY request that waits behind a relay, and an IDENTIFY transaction. -/
def relaying : Channel :=
  sendingChannel Channel.idle (relayOf calm {
    tag := 1, frame := [1], sendable := true, expectReply := false, timeout := 0, kind := .plain, ack := none })

def identifying : Channel := sendingChannel Channel.idle (identifyTransaction (templated calm))

/-- A REGISTER step in a reading phase whose read of position 1 is in a state, with channel 1 in a state. -/
def readingWith (n : Fin 32) (x : StepState) (r : ReadState) (c : Channel) : State :=
  withChan c (templated (reading r (during n x [0, 1])))

/-- A read that waits behind a relay. -/
def readWaits : Channel := { relaying with internal := some (.registerRead 8) }

/-- A read in progress, with a relay behind it. -/
def readRuns : Channel :=
  { sendingChannel Channel.idle (readTransaction (templated calm) 8) with relay := .waiting (request .plain true true) }

theorem chan_withChan (c : Channel) (s : State) : (withChan c s).chan 0 = c := State.setChan_chan_self ..

theorem served_withChan {c : Channel} {s : State} (h : c.state ≠ .idle) (k : Served s) : Served (withChan c s) := by
  intro p hp
  by_cases e : p = 0
  · subst e
    rw [chan_withChan] at hp
    exact absurd hp h
  · have : (withChan c s).chan p = s.chan p := State.setChan_chan_ne _ e _
    rw [this] at hp ⊢
    exact k p hp

theorem noEmptyIdentify_templated (c : Channel) (s : State) : NoEmptyIdentify (withChan c (templated s)) :=
  fun h => absurd (show template.body = [] from h) (by decide)

/-- The refusals; an EMPTY position; a loaded one with no IDENTIFY work, with work that waits behind a relay, and with
work in progress, a relay or nothing behind it; and a running one, in its measurement and in a reading phase. -/
theorem witness_PositionClearAndInclude :
    Ready (bench .loaded) ∧ Served (bench .loaded) ∧ ((bench .sealing).pos 0).state = .sealing ∧
      ((writing .trim (bench .loaded)).pos 0).inFlight = .trim ∧
      ((calm.pos 0).inFlight = .none ∧ (calm.pos 0).state = .empty) ∧
      (((bench .sealed).pos 0).inFlight = .none ∧ ((bench .sealed).pos 0).state ≠ .empty ∧
        ((bench .sealed).pos 0).state ≠ .sealing ∧ (0 : Pos) ∉ (bench .sealed).psc.running ∧
        isReadRequest ((bench .sealed).chan 0).internal = false ∧ ¬ HasIdentify (bench .sealed) 0) ∧
      (∀ c, (withChan c calm).chan 0 = c) ∧
      (isIdentifyRequest { relaying with internal := some .identify }.internal = true ∧
        isIdentifyTransaction { relaying with internal := some .identify }.transaction = false ∧
        { relaying with internal := some .identify }.state ≠ .idle) ∧
      (isIdentifyTransaction identifying.transaction = true ∧ identifying.state ≠ .idle ∧
        isIdentifyTransaction { identifying with relay := .waiting (request .plain true true) }.transaction = true ∧
        (cutChannel (withoutIdentify { identifying with relay := .waiting (request .plain true true) })).relay =
          .waiting (request .plain true true) ∧ (request .plain true true).sendable = true) ∧
      (Ready (during 0 .running [0, 1]) ∧ Served (during 0 .running [0, 1]) ∧ NoEmptyIdentify (during 0 .running [0, 1]) ∧
        StepsConsistent (during 0 .running [0, 1]) ∧ (0 : Pos) ∈ (during 0 .running [0, 1]).psc.running ∧
        (during 0 .running [0, 1]).psc.active = some { slot := 0, run := 7 } ∧
        isReadRequest ((during 0 .running [0, 1]).chan 0).internal = false) ∧
      (Served (readingWith 3 .readBefore .placed readWaits) ∧
        (readingWith 3 .readBefore .placed readWaits).readingPhase = true ∧
        (readingWith 3 .readBefore .placed readWaits).reg 0 ≠ none) ∧
      (0 : Byte).toNat = 0 ∧ 12 < (13 : Byte).toNat := by
  refine ⟨ready_bench _, served_during 0 .idle [], by decide, by decide, by decide, ⟨by decide, by decide, by decide,
    by decide, by decide, fun h => ?_⟩, fun c => chan_withChan c _, ⟨by decide, by decide, by decide⟩,
    ⟨by decide, by decide, by decide, rfl, rfl⟩, ⟨ready_during 0 .running [0, 1], served_during 0 .running [0, 1],
    fun _ p => (show ∀ p, (calm.chan p).internal ≠ some .identify by decide) p, ⟨rfl, fun h => by cases h⟩, by decide,
    rfl, by decide⟩, ⟨served_withChan (by decide) (served_during 3 .readBefore [0, 1]), rfl, by decide⟩, by decide,
    by decide⟩
  rcases h with h | h <;> exact absurd h (by decide)

/-- One of two positions, and the last one; in a reading phase a read that waits, one that runs, and positions that wait
for theirs or do not, so that an exclusion arms the step. -/
theorem witness_ExclusionAbortsPosition :
    Ready (during 0 .running [0, 1]) ∧ Served (during 0 .running [0, 1]) ∧ StepsConsistent (during 0 .running [0, 1]) ∧
      ((during 0 .running [0, 1]).pos 0).state ≠ .empty ∧ (0 : Pos) ∈ (during 0 .running [0, 1]).psc.running ∧
      (during 0 .running [0, 1]).psc.active = some { slot := 0, run := 7 } ∧
      (during 0 .running [0, 1]).readingPhase = false ∧ (∃ q ∈ (during 0 .running [0, 1]).psc.running, q ≠ 0) ∧
      (∀ q ∈ (during 0 .armed [0]).psc.running, q = 0) ∧
      (∀ r c, (readingWith 7 .readBefore r c).readingPhase = true ∧ NoEmptyIdentify (readingWith 7 .readBefore r c) ∧
        (readingWith 7 .readBefore r c).reg 0 = some { read := r, r0 := some 500, r1 := none } ∧
        (readingWith 7 .readBefore r c).chan 0 = c ∧
        (∀ q ∈ (readingWith 7 .readBefore r c).psc.running, q ≠ 0 → ¬ Awaits (readingWith 7 .readBefore r c) q) ∧
        Runs (readingWith 7 .readBefore r c) { slot := 7, run := 7 }
          { errorStep with kind := 3, clock := 1, trigger := 1 } ∧
        Awaits ((readingWith 7 .readBefore r c).setReg 1 (some { read := .owed, r0 := none, r1 := none })) 1) ∧
      isReadTransaction readWaits.transaction = false ∧ isReadTransaction readRuns.transaction = true ∧
      Served (readingWith 7 .readBefore .active readRuns) := by
  refine ⟨ready_during 0 .running [0, 1], served_during 0 .running [0, 1], ⟨rfl, fun h => by cases h⟩, by decide,
    by decide, rfl, by decide, ⟨1, by decide, by decide⟩, by decide, fun r c => ⟨rfl, noEmptyIdentify_templated c _,
    rfl, chan_withChan c _, fun q hq hne => ?_, ⟨rfl, rfl⟩, ⟨_, rfl, .inl rfl⟩⟩, by decide, by decide,
    served_withChan (by decide) (served_during 7 .readBefore [0, 1])⟩
  have h1 : q = 1 := (show ∀ q ∈ [(0 : Pos), 1], q ≠ 0 → q = 1 by decide) q hq hne
  subst h1
  rintro ⟨d, hd, _⟩
  cases hd

/-- A step of each trigger, a delay, no eligible position, and a REGISTER step with a template, and with an empty one at
idle channels and at a busy one. -/
theorem witness_StepRunStartsStep :
    Takes (.addressed 1) (bench .loaded) ∧ Takes .broadcast (bench .loaded) ∧ Served (bench .loaded) ∧
      NoStep (bench .loaded) ∧ (bench .loaded).psc.plan[(0 : Fin 32).val] = some errorStep ∧
      errorStep.kind.toNat ≤ 2 ∧ (∀ p, ¬ Eligible ((bench .sealed).pos p)) ∧
      (∃ p, Eligible ((bench .loaded).pos p)) ∧
      (bench .loaded).psc.plan[(4 : Fin 32).val] = some { errorStep with trigger := 1 } ∧
      (bench .loaded).psc.plan[(5 : Fin 32).val] = some { errorStep with trigger := 2, delay := 20 } ∧
      (bench .loaded).piu.source = false ∧ 0 < (20 : Word16).toNat ∧ errorStep.delay.toNat = 0 ∧
      (bench .loaded).psc.plan[(3 : Fin 32).val] = some { errorStep with kind := 3, clock := 1 } ∧
      (templated (bench .loaded)).pch.registerRead.body ≠ [] ∧ (bench .loaded).pch.registerRead.body = [] ∧
      (∀ p, ((bench .loaded).chan p).state = .idle) ∧ Served (withChan relaying (bench .loaded)) ∧
      ((withChan relaying (bench .loaded)).chan 0).state ≠ .idle ∧ Eligible ((withChan relaying (bench .loaded)).pos 0) :=
  ⟨ready_bench _, awake_calm, served_during 0 .idle [], .inl rfl, rfl, by decide, not_eligible_of_false (by decide),
    ⟨0, eligible_record⟩, rfl, rfl, rfl, by decide, rfl, rfl, by decide, rfl, by decide,
    served_withChan (by decide) (served_during 0 .idle []), by decide, eligible_record⟩

/-- Running positions in a measurement, and reads that wait or run in a reading phase. -/
theorem witness_ActiveStepIsAborted :
    Takes .broadcast (during 0 .running [0, 1]) ∧ Served (during 0 .running [0, 1]) ∧
      NoEmptyIdentify (during 0 .running [0, 1]) ∧ (during 0 .running [0, 1]).stepActive = true ∧
      (during 0 .running [0, 1]).psc.active = some { slot := 0, run := 7 } ∧
      (during 0 .running [0, 1]).psc.plan[(4 : Fin 32).val] = some { errorStep with trigger := 1 } ∧
      (∃ p, Eligible ((during 0 .running [0, 1]).pos p)) ∧ calm.psc.stepState = .idle ∧
      (during 0 .complete []).psc.stepState = .complete ∧ Takes (.addressed 1) (readingWith 3 .readAfter .active readRuns) ∧
      Served (readingWith 3 .readAfter .active readRuns) ∧ NoEmptyIdentify (readingWith 3 .readAfter .active readRuns) ∧
      (readingWith 3 .readAfter .active readRuns).stepActive = true ∧
      (readingWith 3 .readAfter .active readRuns).psc.active = some { slot := 3, run := 7 } :=
  ⟨awake_calm, served_during 0 .running [0, 1], fun _ p => (show ∀ p, (calm.chan p).internal ≠ some .identify by decide) p,
    rfl, rfl, rfl, ⟨0, eligible_record⟩, rfl, rfl, ready_during 3 .readAfter [0, 1],
    served_withChan (by decide) (served_during 3 .readAfter [0, 1]), noEmptyIdentify_templated _ _, rfl, rfl⟩

/-- An abort ends an IDENTIFY request with an empty template, and starts a relay behind it, before the new step places
its read (R48, R142). -/
theorem test_abort_frees_channels_before_the_new_step :
    let s := readingWith 3 .readBefore .active { readRuns with internal := some .identify }
    let t := after (.stepRun (.addressed 1) 3 9) { s with pch := { s.pch with identify := State.reset.pch.identify } }
    (t.chan 0).transaction.map Transaction.owner = some (.relay (request .plain true true)) ∧
      (t.chan 0).internal = some (.registerRead 8) ∧ t.identified 0 = some .badReading := by decide +kernel

theorem witness_StepQueueHoldsOrStarts :
    Takes (.addressed 1) (during 0 .settleAfter [0]) ∧ (during 0 .settleAfter [0]).stepActive = true ∧
      (during 0 .settleAfter [0]).psc.plan[(7 : Fin 32).val].isSome = true ∧ NoStep (bench .loaded) ∧
      (bench .loaded).psc.queued = none ∧ 31 < (32 : Byte).toNat ∧
      (bench .loaded).psc.plan[(31 : Fin 32).val] = none :=
  ⟨ready_during 0 .settleAfter [0], rfl, rfl, .inl rfl, rfl, by decide, rfl⟩

/-- Steps that wait for the edge, with a delay and without, of the first and the last kind, and one that waits for the
other edge. -/
theorem witness_TriggerEdgesBeginArmedStep :
    (∀ (k d t : Fin 4), Runs (stepOf { errorStep with
        kind := BitVec.ofNat 8 k.val, delay := BitVec.ofNat 16 d.val, trigger := BitVec.ofNat 8 t.val } .armed [0, 1])
        { slot := 0, run := 7 } { errorStep with
          kind := BitVec.ofNat 8 k.val, delay := BitVec.ofNat 16 d.val, trigger := BitVec.ofNat 8 t.val }) ∧
      (∀ r, (stepOf r .armed [0, 1]).psc.stepState = .armed ∧ (stepOf r .armed [0, 1]).piu.sync = false ∧
        (stepOf r .armed [0, 1]).piu.source = false) ∧
      calm.psc.stepState ≠ .armed ∧ (∀ a r, Runs (during 5 .armed [0]) a r → r.trigger ≠ 1) ∧
      ∀ a r, Runs (during 4 .armed [0]) a r → r.trigger ≠ 2 :=
  ⟨fun _ _ _ => ⟨rfl, rfl⟩, fun _ => ⟨rfl, rfl, rfl⟩, by decide,
    fun a r ⟨h, h2⟩ => by cases h; cases h2; decide, fun a r ⟨h, h2⟩ => by cases h; cases h2; decide⟩

/-- An expiry raised, one due by the count, and raised ones of an earlier start or another step state. -/
theorem witness_TriggerDelayExpiryBeginsRunning :
    (∀ k : Fin 4, Runs (expired .triggerDelay (stepOf { errorStep with kind := BitVec.ofNat 8 k.val } .settling [0, 1]))
        { slot := 0, run := 7 } { errorStep with kind := BitVec.ofNat 8 k.val }) ∧
      ExpiryDue (expired .triggerDelay (during 0 .settling [0, 1])) .triggerDelay ∧
      ExpiryDue (timed .triggerDelay (during 0 .settling [0, 1])) .triggerDelay ∧
      (∀ use, (expired use (during 0 .armed [0])).psc.raised = [(use, 3)]) ∧
      (expired .triggerDelay (during 0 .armed [0])).psc.stepState ≠ .settling ∧
      (expired .window (during 0 .armed [0])).psc.stepState ≠ .running ∧
      (expired .settle (during 0 .armed [0])).psc.stepState ≠ .settleAfter :=
  ⟨fun _ => ⟨rfl, rfl⟩, ⟨rfl, .inl (by decide)⟩, ⟨rfl, .inr ⟨by decide, rfl⟩⟩, fun _ => rfl, by decide, by decide,
    by decide⟩

/-- A CREEP and a START step at the end of their windows, and a step queued behind one. -/
theorem witness_WindowEndDecidesPositions :
    Runs (expired .window (during 1 .running [0, 1])) { slot := 1, run := 7 } { errorStep with kind := 1 } ∧
      Runs (expired .window (during 2 .running [0, 1])) { slot := 2, run := 7 } { errorStep with kind := 2 } ∧
      Served (expired .window (during 1 .running [0, 1])) ∧
      ExpiryDue (expired .window (during 1 .running [0, 1])) .window ∧
      (queuing (expired .window (during 1 .running [0, 1]))).psc.queued = some { slot := 4, run := 8 } ∧
      (queuing (expired .window (during 1 .running [0, 1]))).psc.plan[(4 : Fin 32).val] =
        some { errorStep with trigger := 1 } ∧
      ∃ p, Eligible ((queuing (expired .window (during 1 .running [0, 1]))).pos p) :=
  ⟨⟨rfl, rfl⟩, ⟨rfl, rfl⟩, served_during 1 .running [0, 1], ⟨rfl, .inl (by decide)⟩, rfl, rfl, 0, eligible_record⟩

/-- A register window with a settle and without, and a settle at its end. -/
theorem witness_RegisterWindowEndsInSecondReads :
    (Runs (expired .window (during 6 .running [0, 1])) { slot := 6, run := 7 }
        { errorStep with kind := 3, clock := 1, settle := 30 } ∧ 0 < (30 : Word16).toNat ∧
      ExpiryDue (expired .window (during 6 .running [0, 1])) .window) ∧
    (Runs (templated (expired .settle (during 6 .settleAfter [0, 1]))) { slot := 6, run := 7 }
        { errorStep with kind := 3, clock := 1, settle := 30 } ∧
      Served (templated (expired .settle (during 6 .settleAfter [0, 1]))) ∧
      (templated (expired .settle (during 6 .settleAfter [0, 1]))).psc.running.Nodup ∧
      (templated (expired .settle (during 6 .settleAfter [0, 1]))).pch.registerRead.body ≠ [] ∧
      ExpiryDue (templated (expired .settle (during 6 .settleAfter [0, 1]))) .settle) ∧
    Runs (templated (expired .window (during 3 .running [0, 1]))) { slot := 3, run := 7 }
        { errorStep with kind := 3, clock := 1 } ∧
      ExpiryDue (templated (expired .window (during 3 .running [0, 1]))) .window ∧ errorStep.settle.toNat = 0 ∧
      (reading .taken (during 3 .running [0, 1])).reg 0 = some { read := .taken, r0 := some 500, r1 := none } :=
  ⟨⟨⟨rfl, rfl⟩, by decide, rfl, .inl (by decide)⟩,
    ⟨⟨rfl, rfl⟩, served_during 6 .settleAfter [0, 1], by decide, by decide, rfl, .inl (by decide)⟩, ⟨rfl, rfl⟩,
    ⟨rfl, .inl (by decide)⟩, rfl, rfl⟩

/-- A settle at its end with an empty REGISTER_READ template: a position at an idle channel, and one at a busy one. -/
theorem witness_RegisterWindowEndsInSecondReads_empty :
    Runs (reading .taken (expired .settle (during 6 .settleAfter [0]))) { slot := 6, run := 7 }
        { errorStep with kind := 3, clock := 1, settle := 30 } ∧
      Served (reading .taken (expired .settle (during 6 .settleAfter [0]))) ∧
      (reading .taken (expired .settle (during 6 .settleAfter [0]))).pch.registerRead.body = [] ∧
      (∀ p ∈ (reading .taken (expired .settle (during 6 .settleAfter [0]))).psc.running,
        (reading .taken (expired .settle (during 6 .settleAfter [0]))).reg p ≠ none) ∧
      (reading .taken (expired .settle (during 6 .settleAfter [0]))).psc.running ≠ [] ∧
      (reading .taken (expired .settle (during 6 .settleAfter [0]))).psc.queued = none ∧
      ExpiryDue (reading .taken (expired .settle (during 6 .settleAfter [0]))) .settle ∧
      (∀ p, ((reading .taken (expired .settle (during 6 .settleAfter [0]))).chan p).state = .idle) ∧
      Served (withChan relaying (reading .taken (expired .settle (during 6 .settleAfter [0])))) ∧
      ((withChan relaying (reading .taken (expired .settle (during 6 .settleAfter [0])))).chan 0).state ≠ .idle :=
  ⟨⟨rfl, rfl⟩, served_during 6 .settleAfter [0], rfl, by decide, by decide, rfl, ⟨rfl, .inl (by decide)⟩, by decide,
    served_withChan (by decide) (served_during 6 .settleAfter [0]), by decide⟩

/-- A queued step starts when an edge decides the last running position (R47, R95). -/
theorem test_queued_step_starts_at_an_edge :
    let s := (during 2 .running [0]).setWindow 0 (some { count := 0, waiting := true, decided := false })
    let t := after (.candidateEdge 0) (queuing s)
    t.psc.stepState = .armed ∧ t.psc.active = some { slot := 4, run := 8 } ∧ t.psc.running = [0, 1] ∧
      t.psc.last = some { slot := 2, run := 7 } ∧ t.psc.queued = none := by decide +kernel

/-- A state whose monitor is armed. -/
def watched (s : State) : State := { s with piu := { s.piu with monitor := .armed 1000 } }

theorem witness_RefLostEndsStep :
    (watched calm).piu.monitor = .armed 1000 ∧ (watched calm).psc.stepState ≠ .running ∧
      (∀ a r, Runs (watched (during 1 .running [0])) a r → r.kind = 1 ∨ r.kind = 2) ∧
      Runs (watched (during 0 .running [0, 1])) { slot := 0, run := 7 } errorStep ∧
      Runs (watched (during 3 .running [0, 1])) { slot := 3, run := 7 } { errorStep with kind := 3, clock := 1 } ∧
      Served (watched (during 0 .running [0, 1])) :=
  ⟨rfl, by decide, fun a r ⟨h, h2⟩ => by cases h; cases h2; decide, ⟨rfl, rfl⟩, ⟨rfl, rfl⟩,
    served_during 0 .running [0, 1]⟩

/-- The line of position 1 with its last accepted edge at microsecond 100 and a dead time of 200, at a microsecond
count. -/
def edged (now : Nat) (s : State) : State :=
  let t := (s.setPos 0 { s.pos 0 with line := { (s.pos 0).line with deadTime := 200 } }).setLine 0
    { s.line 0 with lastAccepted := some 100 }
  { t with piu := { t.piu with micros := now } }

/-- An OPEN gate of ten pulses with a pulse count and a reference count. -/
def openGate (count m : Nat) : GateContext :=
  { newGate 0 with
    state := .opened, index := 1, count := count, m := m,
    latch := some { n := 10, cref := 200000000, cmut := 1000000, nClamped := false } }

/-- A running ERROR step with a gate context at position 1. -/
def gated (g : GateContext) : State := (during 0 .running [0, 1]).setGate 0 (some g)

/-- A running step with a window record at position 1. -/
def windowed (n : Fin 32) (count : Nat) (decided : Bool) (x : StepState) : State :=
  (during n x [0, 1]).setWindow 0 (some { count := count, waiting := true, decided := decided })

theorem accepted_of_none {s : State} {p : Pos} (h : (s.line p).lastAccepted = none) : Accepted s p :=
  fun t0 h2 => by rw [h] at h2; cases h2

theorem served_gated (g : GateContext) : Served (gated g) := served_during 0 .running [0, 1]

/-- An edge one microsecond inside the dead time, one at its end, and an edge select with no unselected change. -/
theorem witness_CandidateEdgeIsJudged :
    ¬ Accepted (edged 299 (bench .loaded)) 0 ∧ Accepted (edged 300 (bench .loaded)) 0 ∧
      Served (edged 300 (bench .loaded)) ∧ (edged 300 (bench .loaded)).gate 0 = none ∧
      (edged 300 (bench .loaded)).window 0 = none ∧ ((bench .loaded).pos 0).line.edge ≠ .both ∧
      (((bench .loaded).setPos 0 (freshRecord load1 .both)).pos 0).line.edge = .both := by
  refine ⟨fun h => absurd (h 100 (by with_unfolding_all rfl)) (by with_unfolding_all decide), fun t0 h => ?_,
      served_during 0 .idle [], rfl, rfl, by decide, rfl⟩
  have h0 : ((edged 300 (bench .loaded)).line 0).lastAccepted = some 100 := by with_unfolding_all rfl
  rw [h0] at h
  cases h
  with_unfolding_all decide

theorem witness_CandidateEdge_rejected_and_accepted :
    ((after (.candidateEdge 0) (edged 299 (bench .loaded))).line 0).tally = 1 ∧
      ((after (.candidateEdge 0) (edged 300 (bench .loaded))).line 0).lastAccepted = some 300 := by decide +kernel

/-- A REF/K timer, one edge before and at the end of a prescaler period, with a count and a match. -/
def divided (remainder count : Nat) : State :=
  let s := during 3 .running [0, 1]
  { s with
    piu := { s.piu with
      monitor := .armed 5
      timer :=
        { counting := true, count := count, matchValue := 7, clock := .refK, divisor := 3, remainder := remainder } } }

theorem witness_ReferenceEdgeReachesItsConsumers :
    ¬ CountsEdge calm .falling ∧ CountsEdge calm .rising ∧ CountsEdge (divided 0 0) .rising ∧
      CountsEdge (stepOf { errorStep with refEdge := 1 } .running [0]) .falling ∧
      (gated (openGate 0 4294967294)).gate 0 = some (openGate 0 4294967294) ∧
      (gated (openGate 0 4294967295)).gate 0 = some (openGate 0 4294967295) ∧ calm.piu.monitor = .disarmed ∧
      calm.piu.timer.counting = false ∧ (divided 1 0).piu.timer.remainder + 1 < (divided 1 0).piu.timer.divisor ∧
      (divided 2 5).piu.timer.divisor ≤ (divided 2 5).piu.timer.remainder + 1 ∧
      (divided 2 5).piu.timer.count + 1 < (divided 2 5).piu.timer.matchValue ∧
      (divided 2 6).piu.timer.matchValue ≤ (divided 2 6).piu.timer.count + 1 := by
  have none_runs : ∀ a r, ¬ Runs calm a r := fun a r h => by cases h.1
  refine ⟨fun h => absurd (h.2 (fun a r hr => absurd hr (none_runs a r))) (by decide),
    ⟨fun a r hr => absurd hr (none_runs a r), fun _ => rfl⟩, ⟨fun a r ⟨h, h2⟩ _ => ?_,
      fun h => absurd rfl (h _ _ ⟨rfl, rfl⟩).2⟩,
    ⟨fun a r ⟨h, h2⟩ _ => ?_, fun h => absurd rfl (h _ _ ⟨rfl, rfl⟩).1⟩, rfl, rfl, rfl, rfl, by decide, by decide,
      by decide, by decide⟩
  · cases h; cases h2; decide
  · cases h; cases h2; decide

/-- A context in each state, and a pulse that is the last but one of its gate. -/
theorem witness_EdgeOpensOrCountsGate :
    (∀ g, Runs (gated g) { slot := 0, run := 7 } errorStep ∧ Served (gated g) ∧ Accepted (gated g) 0 ∧
      (gated g).gate 0 = some g ∧ ((gated g).pos 0).meter = some (meterOf load1)) ∧
      1 ≤ errorStep.cref.toNat ∧ errorStep.gateMode.toNat ≤ 1 ∧ (newGate 0).state = .seek ∧
      (openGate 8 0).state = .opened ∧ (∃ lt, (openGate 8 0).latch = some lt ∧ (openGate 8 0).count + 1 < lt.n) ∧
      { openGate 8 0 with state := .done }.state = .done :=
  ⟨fun g => ⟨⟨rfl, rfl⟩, served_gated g, accepted_of_none (by with_unfolding_all rfl), rfl, rfl⟩, by decide,
    by decide, rfl, rfl, ⟨_, rfl, by decide⟩,
    rfl⟩

/-- A gate about to close whose meter agrees with the reference, two gates of three accepted. -/
def lastGate : GateContext :=
  { openGate 9 2000000 with discards := 1, attempts := 2, accepted := 2, bounds := some (0, 0) }

theorem error_of_lastGate : IsCloseError { n := 10, cref := 200000000, cmut := 1000000, nClamped := false }
    { lastGate with count := 10 } (some (0, false)) := by
  refine ⟨fun h => absurd h (by decide), fun _ _ => ⟨0, false, rfl, 0, fun k => ⟨?_, fun h => ?_⟩, by decide,
      by decide⟩⟩
  · simp [lastGate, openGate]
  · have : k = 0 := by simpa [lastGate, openGate] using h
    simp [this]

/-- A warm-up gate, after which the measurement goes on. -/
theorem witness_ClosingEdgeOpensNextGate :
    (openGate 9 2000000).latch = some { n := 10, cref := 200000000, cmut := 1000000, nClamped := false } ∧
      (10 : Nat) ≤ (openGate 9 2000000).count + 1 ∧
      IsOutcome errorStep 0 { openGate 9 2000000 with count := 10 } .discarded ∧
      CountsAfter .discarded (some (0, false)) { openGate 9 2000000 with count := 10 }
        { openGate 9 2000000 with count := 10, discards := 1 } ∧
      GoesOn errorStep .discarded { openGate 9 2000000 with count := 10, discards := 1 } :=
  ⟨rfl, by decide, ⟨fun _ => rfl, fun h => absurd h (by decide)⟩,
    ⟨fun _ => rfl, fun h => absurd h (by decide), fun h => absurd h (by decide)⟩, by decide, by decide, by decide⟩

/-- The third accepted gate of a step of three gates, with its statistics and verdict. -/
theorem witness_ClosingEdgeEndsMeasurement :
    Runs (gated lastGate) { slot := 0, run := 7 } errorStep ∧ Accepted (gated lastGate) 0 ∧
      (gated lastGate).psc.stepState = .running ∧ (0 : Pos) ∈ (gated lastGate).psc.running ∧
      lastGate.state = .opened ∧ (10 : Nat) ≤ lastGate.count + 1 ∧
      GateClosed errorStep { n := 10, cref := 200000000, cmut := 1000000, nClamped := false } 0
        { lastGate with count := 10 } .accepted (some (0, false))
        { lastGate with count := 10, attempts := 3, accepted := 3 } ∧
      ∀ mean spread, IsStatistics { lastGate with count := 10, attempts := 3, accepted := 3 } (some (mean, spread)) →
        IsErrorVerdict errorStep mean spread .pass := by
  refine ⟨⟨rfl, rfl⟩, accepted_of_none (by with_unfolding_all rfl), rfl, by decide, rfl, by decide, ⟨?_,
      error_of_lastGate, ?_⟩, ?_⟩
  · exact ⟨fun h => absurd h (by decide), fun _ => ⟨fun h => absurd h (by decide), fun _ =>
      ⟨fun h => absurd h (by decide), fun _ => ⟨fun h => absurd h (by decide), fun _ => rfl⟩⟩⟩⟩
  · refine ⟨fun h => absurd h (by decide), fun h => absurd h (by decide), fun _ e sat h => ?_⟩
    cases h
    exact ⟨0, 0, rfl, fun h => absurd h (by decide), fun b hb => by cases hb; decide⟩
  · intro mean spread h
    obtain ⟨m, hm, he⟩ := h.2 (0, 0) rfl (by decide)
    cases he
    have h0 := (hm 0).1
    simp only [lastGate, openGate, newGate] at h0
    have : mean = 0 := by
      simp at h0
      have := abs_nonneg mean
      exact abs_eq_zero.mp (by omega)
    subst this
    exact ⟨fun h => absurd h (by decide), fun _ _ => rfl, fun _ h => absurd h (by decide)⟩

/-- The two other ends: a gate that overflowed, and a noisy one with no attempt left. -/
theorem witness_ClosingEdgeEndsMeasurement_otherwise :
    IsOutcome errorStep 0 { lastGate with count := 10, overrange := true } .overrange ∧
      IsOutcome errorStep 1 { lastGate with count := 10, attempts := 3 } .noisy ∧
      (GateOutcome.noisy ≠ .overrange ∧ 2 ≠ errorStep.gates.toNat ∧ 2 + errorStep.extra.toNat < 4) :=
  ⟨⟨fun h => absurd h (by decide), fun _ => ⟨fun _ => rfl, fun h => absurd h (by decide)⟩⟩,
    ⟨fun h => absurd h (by decide), fun _ => ⟨fun h => absurd h (by decide), fun _ => ⟨fun h => absurd h (by decide),
      fun _ => ⟨fun _ => rfl, fun h => absurd h (by decide)⟩⟩⟩⟩, by decide⟩

theorem witness_GateTimeoutGivesNoPulse :
    calm.gate 0 = none ∧
      (gated { openGate 3 0 with state := .done }).gate 0 = some { openGate 3 0 with state := .done } ∧
      (gated (newGate 0)).psc.active = some { slot := 0, run := 7 } ∧ Served (gated (newGate 0)) ∧
      (gated (newGate 0)).psc.stepState = .running ∧ (0 : Pos) ∈ (gated (newGate 0)).psc.running ∧
      (gated (newGate 0)).gate 0 = some (newGate 0) ∧
      (newGate 0).state ≠ .done :=
  ⟨rfl, rfl, rfl, served_gated _, rfl, by decide, rfl, by decide⟩

/-- A decided record, one outside RUNNING, an edge at the allowance and one above it, and a START step. -/
theorem witness_WindowEdgesCountAndDecide :
    (∀ c d x, Runs (windowed 1 c d x) { slot := 1, run := 7 } { errorStep with kind := 1 } ∧ Served (windowed 1 c d x) ∧
      Accepted (windowed 1 c d x) 0 ∧ (windowed 1 c d x).gate 0 = none ∧
      (windowed 1 c d x).window 0 = some { count := c, waiting := true, decided := d } ∧
      (windowed 1 c d x).psc.stepState = x ∧ (0 : Pos) ∈ (windowed 1 c d x).psc.running) ∧
      StepState.armed ≠ .running ∧ 0 + 1 ≤ errorStep.allowance.toNat ∧ errorStep.allowance.toNat < 1 + 1 ∧
      Runs (windowed 2 0 false .running) { slot := 2, run := 7 } { errorStep with kind := 2 } :=
  ⟨fun c d x => ⟨⟨rfl, rfl⟩, served_during 1 x [0, 1], accepted_of_none (by with_unfolding_all rfl), rfl, rfl, rfl,
    List.mem_cons_self ..⟩, by decide, by decide, by decide, rfl, rfl⟩

/-- The least figures the error formula takes, a gate without one, and statistics at the bound. -/
theorem witness_GateErrorFormula_and_StatisticsAndErrorVerdict :
    (1 ≤ 1 ∧ ((openGate 9 0).m = 0) ∧ 1 ≤ (openGate 9 1).m ∧ (openGate 9 1).overrange = false) ∧
      |(-999999 : Int)| ≤ 999999 * ((1 : Nat) : Int) ∧
      stepStatistics (-999999) (some (-999999, -999999)) 1 = some (-999999, 0) := by decide

/-- Readings of one digit that rise, stand and fall. -/
theorem witness_RegisterArithmetic :
    (9 < 10 ^ 1 ∧ 0 < 10 ^ 1) ∧ (9 ≤ 9) ∧ 0 < 9 ∧ 1 ≤ registerStep.window.toNat ∧ 1 ≤ registerStep.divisor.toNat := by
  decide

/-- An entry of an ERROR step with a mean. -/
def errorEntry (v : Verdict) (mean : Int) : Entry :=
  { verdict := v, runId := 7, saturated := false, nClamped := false, fields := .error 3 3 (some 10) (some (mean, 23)) }

/-- The meter of 7.1.1, case 1: steps 0 and 4 measured. -/
def measured : PositionRecord :=
  { record .loaded with
    results := ((Vector.replicate 32 none).set 0 (some (errorEntry .fail 2500))).set 4 (some (errorEntry .pass 3366)) }

/-- Masks and step pairs that are refused, one that is taken with B and one without, a position that takes part with
usable entries and one that does not, and targets that fit or do not. -/
theorem witness_CorrectionComputeFormsWords :
    Ready (bench .loaded) ∧ (¬ MaskLegal 0 ∧ ¬ MaskLegal 4096) ∧ (MaskLegal 1 ∧ MaskLegal 4095) ∧
      (¬ ∃ na nb, StepsLegal (bench .loaded) 32 none na nb) ∧ StepsLegal (bench .loaded) 0 none 0 none ∧
      StepsLegal (bench .loaded) 0 (some 4) 0 (some (4, 1732)) ∧ (maskPositions 1)[0]? = some 0 ∧
      (1 : Word16).getLsbD (11 : Pos).val = false ∧ ¬ TakesPart ((bench .verified).pos 0) ∧ TakesPart measured ∧
      measured.meter = some (meterOf load1) ∧ 1 ≤ (meterOf load1).gainUnit ∧ 1 ≤ (meterOf load1).phaseUnit ∧
      (¬ ∃ e, Usable measured 1 e) ∧ Usable measured 0 2500 ∧ Usable measured 4 3366 ∧
      TargetsFit (meterOf load1) (-164) (some (-10)) ∧
        ¬ TargetsFit { meterOf load1 with gainWidth := 8 } (-164) none := by
  refine ⟨ready_bench _, ⟨fun h => absurd h.1 (by decide), fun h => absurd h.2 (by decide)⟩,
    ⟨⟨by decide, by decide⟩, by decide, by decide⟩, ?_, ⟨rfl, ⟨_, rfl, rfl⟩, .inl ⟨rfl, rfl⟩⟩,
    ⟨rfl, ⟨_, rfl, rfl⟩, .inr ⟨4, _, rfl, by decide, rfl, rfl, by decide, rfl⟩⟩, by decide, by decide,
    fun h => absurd h.1 (by decide), ⟨.inl rfl, rfl⟩, rfl, by decide, by decide, ?_,
    ⟨_, _, _, _, _, rfl, rfl, by decide⟩, ⟨_, _, _, _, _, rfl, rfl, by decide⟩,
    ⟨by unfold WordFits; decide, fun w h => by cases h; unfold WordFits; decide⟩, ?_⟩
  · rintro ⟨na, nb, h, _⟩
    exact (show ∀ na : Fin 32, (32 : Byte) ≠ BitVec.ofNat 8 na.val by decide) na h
  · rintro ⟨_, _, _, _, _, _, h, _⟩
    cases h
  · intro h
    have := h.1
    unfold WordFits at this
    exact absurd this (by decide)

/-- The shortest and the longest list, refused lists, and a position with every entry PASS or with one that is not. -/
theorem witness_VerifyEvaluateJudgesEntries :
    Ready (bench .loaded) ∧ ListLegal [4] ∧ ListLegal ((List.range 32).map (fun n => BitVec.ofNat 8 n)) ∧
      ¬ ListLegal [] ∧ ¬ ListLegal [32] ∧ ¬ ListLegal [4, 4] ∧ TakesPart measured ∧
      ¬ TakesPart ((writing .trim (bench .loaded)).pos 0) ∧ (∀ b ∈ [(4 : Byte)], Passed measured b) ∧
      (BitVec.ofNat 8 (5 : Fin 32).val ∈ [(5 : Byte), 4] ∧ ¬ Passed measured (BitVec.ofNat 8 (5 : Fin 32).val) ∧
        ∀ b ∈ [(5 : Byte), 4], b.toNat < (5 : Fin 32).val → Passed measured b) ∧
      measured.results[(5 : Fin 32).val] = none ∧ ¬ Passed measured (BitVec.ofNat 8 (0 : Fin 32).val) ∧
      (∃ e, measured.results[(0 : Fin 32).val] = some e) ∧ [(5 : Byte), 4].Perm [4, 5] := by
  have four : Passed measured 4 := ⟨4, _, rfl, rfl, rfl⟩
  refine ⟨ready_bench _, ⟨by decide, by decide, by decide⟩, ⟨by decide, by decide, by decide⟩, fun h => h.1 rfl,
    fun h => absurd h.2.1 (by decide), fun h => absurd h.2.2 (by decide), ⟨.inl rfl, rfl⟩,
      fun h => absurd h.2 (by decide),
    ?_, ⟨by decide, ?_, ?_⟩, rfl, ?_, ⟨_, rfl⟩, List.Perm.swap _ _ _⟩
  · intro b h
    cases List.mem_singleton.mp h
    exact four
  · rintro ⟨n, e, h, h2, _⟩
    have : n = 5 := (show ∀ n : Fin 32, BitVec.ofNat 8 (5 : Fin 32).val = BitVec.ofNat 8 n.val → n = 5 by decide) n h
    subst this
    cases h2
  · intro b h hlt
    simp only [List.mem_cons, List.not_mem_nil, or_false] at h
    rcases h with rfl | rfl
    · exact absurd hlt (by decide)
    · exact four
  · rintro ⟨n, e, h, h2, h3⟩
    have : n = 0 := (show ∀ n : Fin 32, BitVec.ofNat 8 (0 : Fin 32).val = BitVec.ofNat 8 n.val → n = 0 by decide) n h
    subst this
    cases h2
    cases h3

/-! ### Channels -/

theorem othersServed_withChan (c : Channel) : OthersServed (withChan c (templated calm)) 0 := by
  intro q hq _
  have : (withChan c (templated calm)).chan q = (templated calm).chan q := by
    exact State.setChan_chan_ne _ hq _
  rw [this]
  exact (show ∀ q, ((templated calm).chan q).internal = none by decide) q

/-- A read whose template is empty, at an idle channel. -/
def emptyReadWaits : State :=
  withChan { Channel.idle with internal := some (.registerRead 8) } (reading .placed (during 3 .readAfter [0, 1]))

theorem witness_ChannelStartsAndAdvances :
    (∀ c, OthersServed (withChan c (templated calm)) 0 ∧ (withChan c (templated calm)).chan 0 = c) ∧
      relaying.state ≠ .idle ∧ NothingWaits calm 0 ∧
      (∃ c : Channel, c = { Channel.idle with relay := .waiting (request .plain true true) } ∧ c.state = .idle ∧
        c.internal = none) ∧
      (templated calm).pch.identify.body ≠ [] ∧ (∀ c, calm.reg 0 = some c → c.read ≠ .owed) ∧
      (Runs (reading .owed (during 3 .readBefore [0])) { slot := 3, run := 7 } { errorStep with kind := 3, clock := 1 } ∧
        (reading .owed (during 3 .readBefore [0])).reg 0 = some { read := .owed, r0 := some 500, r1 := none }) ∧
      (templated calm).pch.registerRead.body ≠ [] ∧ calm.pch.identify.body = [] ∧ NoOwedRead calm ∧
      ((bench .loaded).pos 0).state ≠ .empty ∧
      (∀ r, RelaySlot.waiting (request (.seal 5) true false) = .waiting r → r.sendable = false) ∧
      ((emptyReadWaits.chan 0).internal = some (.registerRead 8) ∧ emptyReadWaits.pch.registerRead.body = [] ∧
        Runs emptyReadWaits { slot := 3, run := 7 } { errorStep with kind := 3, clock := 1 } ∧
        (0 : Pos) ∈ emptyReadWaits.psc.running ∧
        emptyReadWaits.reg 0 = some { read := .placed, r0 := some 500, r1 := none } ∧
        emptyReadWaits.psc.stepState = .readAfter ∧ (∃ q ∈ emptyReadWaits.psc.running, q ≠ 0) ∧
        Awaits (emptyReadWaits.setReg 1 (some { read := .active, r0 := none, r1 := none })) 1) ∧
      identifying.state = .sending (identifyTransaction (templated calm)) ∧
      (identifyTransaction (templated calm)).expectReply = true ∧ (∀ t, Channel.idle.state ≠ .sending t) ∧
      (∀ t waited, Channel.idle.state ≠ .awaitReply t waited) ∧ ∀ t, Channel.idle.state ≠ .receiving t := by
  have no_reg : ∀ p, calm.reg p = none := by decide
  exact ⟨fun c => ⟨othersServed_withChan c, by simp [withChan, State.chan, State.setChan]⟩, by decide,
    nothingWaits_of_empty (by decide), ⟨_, rfl, rfl, rfl⟩, by decide, (fun c h => by rw [no_reg] at h; cases h),
    ⟨⟨rfl, rfl⟩, rfl⟩, by decide, rfl, (fun p c h => by rw [no_reg] at h; cases h), by decide,
    (fun r h => by cases h; rfl), ⟨rfl, rfl, ⟨rfl, rfl⟩, by decide, rfl, rfl, ⟨1, by decide, by decide⟩,
      ⟨_, rfl, .inr (.inr rfl)⟩⟩, rfl, rfl, (fun _ h => by cases h), (fun _ _ h => by cases h), fun _ h => by cases h⟩

/-- The transaction of a relay. -/
def relayed (r : RelayRequest) : Transaction := relayOf (templated calm) r

/-- A module whose channel 1 is in a state. -/
def channelled (x : ChannelState) : State := withChan { Channel.idle with state := x } (templated calm)

/-- A reply of one byte, the expected one. -/
def acked : ReplyBuffer := { bytes := [6], truncated := false, charError := false }

theorem replyOf_all {f : Profile} (l : List RxChar) (h : ∀ c ∈ l.tail, WithinGap f c) : ReplyOf f l l :=
  ⟨[], (List.append_nil l).symm, id, h, fun c hc => by cases hc⟩

theorem received_acked : Received Profile.default .empty [rx 6] acked := ⟨by decide, by decide, by decide⟩

theorem ends_by_reply (t : Transaction) (h : t.profile = Profile.default) :
    EndsBy (channelled (.receiving t)) 0 t (.replyEnd 0 [rx 6]) .replied acked := by
  refine .inr (.inr ⟨_, [rx 6], rfl, rfl, rfl, show 0 ≤ 256 by decide, replyOf_all _ (fun c hc => by cases hc), ?_⟩)
  rw [h]
  exact received_acked

theorem ends_by_timeout (t : Transaction) :
    EndsBy (channelled (.awaitReply t 0)) 0 t (.replyTimeout 0) .noReply
      { bytes := [], truncated := false, charError := false } := .inr (.inl ⟨rfl, ⟨_, rfl⟩, rfl, rfl⟩)

theorem ends_by_sending (t : Transaction) (h : t.expectReply = false) :
    EndsBy (channelled (.sending t)) 0 t (.sendingEnd 0) .sent
      { bytes := [], truncated := false, charError := false } := .inl ⟨rfl, rfl, rfl, h, rfl, rfl⟩

/-- A character of 8.1: 53h with seven data bits, 1100101 in their order; four ones. The EVEN parity bit is 0, the ODD
one 1, and a received character with the other bit, or a low stop bit, is faulty (R133). -/
theorem test_characters :
    let even := { Profile.default with sevenBits := true, parity := .even }
    let odd := { Profile.default with sevenBits := true, parity := .odd }
    charLevels even 0xD3 = [false, true, true, false, false, true, false, true, false, true] ∧
      charLevels odd 0xD3 = [false, true, true, false, false, true, false, true, true, true] ∧
      charLevels Profile.default 0x80 = [false, false, false, false, false, false, false, false, true, true] ∧
      charFault even (rx 0x53) = false ∧ charFault odd (rx 0x53) = true ∧
      charFault Profile.default { rx 0x53 with stop := false } = true := by decide

/-- A reply gap of 11 bit times of 2 microseconds: a start bit at 21 microseconds goes on with the reply, one at 22 does
not (R140). -/
theorem test_reply_gap :
    let f := { Profile.default with divisor := 1, gap := 11 }
    replyChars f [{ rx 1 with idle := 99 }, { rx 2 with idle := 21 }, { rx 3 with idle := 22 }, rx 4] =
      [{ rx 1 with idle := 99 }, { rx 2 with idle := 21 }] := by decide

theorem others_and_nothing (x : ChannelState) : OthersServed (channelled x) 0 ∧ NothingWaits (channelled x) 0 :=
  ⟨othersServed_withChan _, nothingWaits_of_empty ⟨rfl, rfl⟩⟩

/-- A state with held answers. -/
def holding (l : List HeldAt) (s : State) : State := { s with bli := { s.bli with held := l } }

/-- A plain relay and a trim, by each of the three ends, with room for the answer and without. -/
theorem witness_RelayEndIsAnswered :
    (relayed (request .plain false true)).owner = .relay (request .plain false true) ∧
      (relayed (request (.trim 5 none) true true)).owner = .relay (request (.trim 5 none) true true) ∧
      (∀ n, (request (.trim 5 none) true true).kind ≠ .seal n) ∧
      EndsBy (channelled (.sending (relayed (request .plain false true)))) 0 (relayed (request .plain false true))
        (.sendingEnd 0) .sent { bytes := [], truncated := false, charError := false } ∧
      EndsBy (channelled (.receiving (relayed (request (.trim 5 none) true true)))) 0
        (relayed (request (.trim 5 none) true true)) (.replyEnd 0 [rx 6]) .replied acked ∧
      AckHolds (request (.trim 5 none) true true).ack Profile.default acked .notChecked ∧
      (∀ x, (channelled x).bli.answers.length < 8 ∧ (channelled x).bli.held = [] ∧ OthersServed (channelled x) 0 ∧ NothingWaits (channelled x) 0) ∧
      8 ≤ (withAnswers 8 (channelled .idle)).bli.answers.length ∧ (holding [.slot 1] (channelled .idle)).bli.held ≠ [] :=
  ⟨rfl, rfl, (fun _ h => by cases h), ends_by_sending _ rfl, ends_by_reply _ rfl, ⟨_, rfl, by decide⟩,
    fun x => ⟨show 0 < 8 by decide, rfl, others_and_nothing x⟩, by decide, by decide⟩

/-- A seal transaction whose flow is live: during a running job, and with none and its slot reserved. -/
def sealingState (x : ChannelState) : State :=
  let s := (channelled x).setFlow 0 (some { number := 5, slot := 0 })
  { s with srs := s.srs.setReservation 0 (some { number := 5, pos := 0 }) }

theorem witness_SealTransactionEndQueuesBody :
    (relayed (request (.seal 5) true true)).owner = .relay (request (.seal 5) true true) ∧
      (relayed (request (.seal 5) true true)).expectReply = true ∧
      EndsBy (sealingState (.receiving (relayed (request (.seal 5) true true)))) 0 (relayed (request (.seal 5) true true))
        (.replyEnd 0 [rx 6]) .replied acked ∧
      (∀ x, (sealingState x).flow 0 = some { number := 5, slot := 0 } ∧ (sealingState x).bli.answers.length < 8 ∧
        (sealingState x).bli.held = [] ∧
        OthersServed (sealingState x) 0 ∧ NothingWaits (sealingState x) 0 ∧ (sealingState x).srs.queue = [] ∧
        (sealingState x).srs.slotState 0 = .reserved) ∧
      (working (.collect 1) (sealingState .idle)).srs.running ≠ none ∧
      8 ≤ (withAnswers 8 (sealingState .idle)).bli.answers.length ∧ (holding [.slot 1] (sealingState .idle)).bli.held ≠ [] :=
  ⟨rfl, rfl, ends_by_reply (relayed (request (.seal 5) true true)) rfl,
    fun x => ⟨rfl, show 0 < 8 by decide, rfl, (others_and_nothing x).1, (others_and_nothing x).2, rfl, rfl⟩, by decide,
    by decide, by decide⟩

/-- A relay in each state of its life, IDENTIFY work, a held answer, a trim flow, and a seal flow during a running job. -/
theorem witness_RunResetActs_work :
    (∀ k x, x = .sending (relayed (request k true true)) ∨ x = .receiving (relayed (request k true true)) →
      Relays (channelled x) 0 (request k true true) ∧ RelayWork (channelled x) 0 (request k true true)) ∧
      (∀ k, ((withChan { relaying with relay := .waiting (request k true false) } calm).chan 0).relay =
        .waiting (request k true false)) ∧
      HasIdentify (withChan identifying calm) 0 ∧ ¬ HasIdentify (withChan relaying calm) 0 ∧
      ((channelled (.replyHeld (.storeFull 3))).chan 0).state = .replyHeld (.storeFull 3) ∧
      (request (.trim 5 none) true true).kind = .trim 5 none ∧ (request (.seal 5) true true).kind = .seal 5 ∧
      (working (.collect 1) (sealingState .idle)).srs.running ≠ none ∧
      (working (.collect 1) (sealingState .idle)).flow 0 = some { number := 5, slot := 0 } := by
  refine ⟨fun k x h => ?_, fun k => rfl, .inr (by decide), fun h => ?_, rfl, rfl, rfl, by decide, rfl⟩
  · have hr : Relays (channelled x) 0 (request k true true) := by
      rcases h with rfl | rfl <;> exact ⟨_, rfl, rfl⟩
    exact ⟨hr, .inl hr⟩
  · rcases h with h | h <;> exact absurd h (by decide)

/-- A RUN reset ends a relay with ABORTED, after its own answer, and completes the character on the line (R144, R147,
R187). -/
theorem test_run_reset_cuts_a_relay :
    let t := after (.moduleResetRun (.addressed 1)) (withChan relaying calm)
    t.bli.answers.map (fun a => a.cell.payload) = [[0], [0, 5, 0, 0, 0]] ∧ (t.chan 0).state = .idle ∧
      (t.chan 0).wire.length = 1 := by decide +kernel

/-- A relay that ends while an answer is held waits behind it, though the queue has a place (R185). -/
theorem test_held_answers_keep_their_order :
    (after (.replyTimeout 0) (holding [.channel 1] (withAnswers 7
      (channelled (.awaitReply (relayed (request .plain true true)) 0))))).bli.held = [.channel 1, .channel 0] := by
  decide +kernel

/-- EMPTY and loaded positions, an idle and a busy channel, and an occupied internal slot. -/
theorem witness_IdentifyQueuesRequests :
    Ready (templated (bench .loaded)) ∧ ¬ MaskLegal 0 ∧ MaskLegal 4095 ∧ Served (templated (bench .loaded)) ∧
      NoOwedRead (templated (bench .loaded)) ∧ (templated (bench .loaded)).pch.identify.body ≠ [] ∧
      (maskPositions 4095)[11]? = some 11 ∧ ((templated (bench .loaded)).pos 11).state = .empty ∧
      ((templated (bench .loaded)).pos 0).state ≠ .empty ∧ ((templated (bench .loaded)).chan 0).state = .idle ∧
      relaying.internal = none ∧ relaying.state ≠ .idle ∧
        { relaying with internal := some .identify }.internal ≠ none := by
  have no_reg : ∀ p, (templated (bench .loaded)).reg p = none := by decide
  exact ⟨ready_bench .loaded, fun h => absurd h.1 (by decide), ⟨by decide, by decide⟩, served_during 0 .idle [],
    (fun p c h => by rw [no_reg] at h; cases h), by decide, by decide, by decide, by decide, by decide, rfl,
      by decide, by decide⟩

theorem witness_IdentifyEndSetsSerial :
    (identifyTransaction (templated (bench .loaded))).owner = .identify template ∧
      (identifyTransaction (templated (bench .loaded))).expectReply = true ∧
      EndsBy (channelled (.receiving (identifyTransaction (templated calm)))) 0 (identifyTransaction (templated calm))
        (.replyEnd 0 [rx 6]) .replied acked ∧
      EndsBy (channelled (.awaitReply (identifyTransaction (templated calm)) 0)) 0 (identifyTransaction (templated calm))
        (.replyTimeout 0) .noReply { bytes := [], truncated := false, charError := false } ∧
      (∀ x, OthersServed (channelled x) 0 ∧ NothingWaits (channelled x) 0) ∧
      ∀ x, (((channelled x).setPos 0 (record .loaded)).pos 0).state ≠ .empty :=
  ⟨rfl, rfl, ends_by_reply _ rfl, ends_by_timeout _, others_and_nothing,
    fun _ => show PosState.loaded ≠ .empty by decide⟩

/-- A REGISTER step in a reading phase whose read of position 1 is active. -/
def activeRead (x : StepState) (c : ChannelState) : State :=
  withChan { Channel.idle with state := c } (templated (reading .active (during 3 x [0, 1])))

/-- A reply of four BCD digits. -/
def digitsReply : ReplyBuffer := { bytes := [0x01, 0x23], truncated := false, charError := false }

theorem received_digits : Received Profile.default .empty [rx 0x01, rx 0x23] digitsReply :=
  ⟨by decide, by decide, by decide⟩

theorem reading_of_digitsReply :
    IsReading { template with encoding := 1 } 8 Profile.default digitsReply .notChecked (some 123) := by
  refine ⟨?_, fun h => absurd ⟨[0x01, 0x23], 123, ⟨by decide, by decide, by decide⟩, .inl ⟨rfl, by decide, by decide⟩,
      by decide⟩ h⟩
  rintro l v ⟨_, _, hl⟩ (⟨_, _, hv⟩ | ⟨h, _⟩ | ⟨h, _⟩) _
  · subst hl
    rw [hv]
    decide
  · exact absurd h (by decide)
  · exact absurd h (by decide)

/-- A reading with another one awaited and as the last one, in each reading phase; and a read that fails. -/
theorem witness_RegisterReadEnds :
    (readTransaction (templated calm) 8).owner = .registerRead 8 { template with encoding := 1 } ∧
      (∀ x, EndsBy (activeRead x (.receiving (readTransaction (templated calm) 8))) 0 (readTransaction (templated calm) 8)
        (.replyEnd 0 [rx 0x01, rx 0x23]) .replied digitsReply) ∧
      (∀ x, EndsBy (activeRead x (.awaitReply (readTransaction (templated calm) 8) 0)) 0
        (readTransaction (templated calm) 8) (.replyTimeout 0) .noReply { bytes := [], truncated := false, charError := false }) ∧
      (∀ x c, Runs (activeRead x c) { slot := 3, run := 7 } { errorStep with kind := 3, clock := 1 } ∧
        Runs { activeRead x c with psc := { (activeRead x c).psc with active := some { slot := 7, run := 7 } } }
          { slot := 7, run := 7 } { errorStep with kind := 3, clock := 1, trigger := 1 } ∧
        (0 : Pos) ∈ (activeRead x c).psc.running ∧ (activeRead x c).psc.running.Nodup ∧
        (activeRead x c).reg 0 = some { read := .active, r0 := some 500, r1 := none } ∧
        (activeRead x c).psc.stepState = x ∧ OthersServed (activeRead x c) 0 ∧ NothingWaits (activeRead x c) 0 ∧
          ∀ q ∈ (activeRead x c).psc.running, q ≠ 0 → ¬ Awaits (activeRead x c) q) ∧
      (∀ x c, Awaits ((activeRead x c).setReg 1 (some { read := .placed, r0 := none, r1 := none })) 1) ∧
      1 ≤ errorStep.window.toNat ∧ 1 ≤ errorStep.divisor.toNat := by
  refine ⟨rfl, fun x => .inr (.inr ⟨_, [rx 0x01, rx 0x23], rfl, rfl, rfl, show 0 ≤ 256 by decide,
      replyOf_all _ (by unfold WithinGap; decide), received_digits⟩),
    fun x => .inr (.inl ⟨rfl, ⟨_, rfl⟩, rfl, rfl⟩), fun x c => ⟨⟨rfl, rfl⟩, ⟨rfl, rfl⟩, List.mem_cons_self ..,
      show [(0 : Pos), 1].Nodup by decide, rfl, rfl, fun q hq _ => ?_,
      nothingWaits_of_empty ⟨rfl, rfl⟩, ?_⟩, fun x c => ⟨_, rfl, .inr (.inl rfl)⟩, by decide, by decide⟩
  · have : (activeRead x c).chan q = (templated calm).chan q := State.setChan_chan_ne _ hq _
    rw [this]
    exact (show ∀ q, ((templated calm).chan q).internal = none by decide) q
  rintro q hq hne ⟨d, hd, _⟩
  have h1 : q = 1 := (show ∀ q ∈ [(0 : Pos), 1], q ≠ 0 → q = 1 by decide) q hq hne
  subst h1
  cases hd

theorem witness_HeldAnswerTakesPlace :
    calm.bli.held = [] ∧ 8 ≤ (withAnswers 8 calm).bli.answers.length ∧
      (withAnswers 7 calm).bli.answers.length < 8 ∧
      ((holding [.channel 0] (channelled (.replyHeld (.storeFull 3)))).bli.held = .channel 0 :: [] ∧
        ((holding [.channel 0] (channelled (.replyHeld (.storeFull 3)))).chan 0).state = .replyHeld (.storeFull 3)) ∧
      (holding [.slot 0] (withChan { relaying with relay := .ended (.storeFull 3) } calm)).bli.held = .slot 0 :: [] ∧
      ((holding [.slot 0] (withChan { relaying with relay := .ended (.storeFull 3) } calm)).chan 0).relay =
        .ended (.storeFull 3) ∧
      ∀ x, OthersServed (channelled x) 0 ∧ NothingWaits (channelled x) 0 :=
  ⟨rfl, by decide, by decide, ⟨rfl, rfl⟩, rfl, rfl, others_and_nothing⟩

/-! ### Frames and seals -/

/-- A rule for the code 5710h with an action, in every state. -/
def ruleFor (a : Action) (patches : List Patch) : FrameRule :=
  { enabled := true, value := 0x5710, mask := 0, action := a,
    allowed := { loaded := true, trimmed := true, verified := true, sealed := true }, expectReply := true, timeout :=
      1000,
    patches := patches, ack := some { offset := 0, expected := 6 } }

/-- A bench whose only rule is that, in place 15. -/
def ruled (f : FrameRule) (s : State) : State := { s with rules := (Vector.replicate 16 FrameRule.off).set 15 f }

/-- A frame of six bytes with that code. -/
def frame : List Byte := [0x01, 0x57, 0x10, 0, 0, 0]

theorem ruleOf_ruled (f : FrameRule) (s : State) (hs : s.pch.profile.codeAt = 1) (he : f.enabled = true)
    (hv : f.value = 0x5710) : RuleOf (ruled f s) frame f := by
  have hp : (ruled f s).pch.profile.codeAt = 1 := hs
  refine ⟨15, by simp [ruled], ⟨he, fun k hk => ?_⟩, fun j hj h => ?_⟩
  · clear hk
    rw [hp, hv]
    revert k
    decide
  · have h1 : (ruled f s).rules[j.val] = FrameRule.off := by
      have : j.val ≠ 15 := by omega
      simp [ruled, Vector.getElem_set_ne, Ne.symm this]
    rw [h1] at h
    exact absurd h.1 (by decide)

/-- The conditions of a RELAY rule: none holds; of a BLOCK rule: BLOCKED; of a TRIM_WRITE rule without a pending
correction: NO_CORRECTION. The other refusals: numbers and lengths out of range, an EMPTY position, a short frame, no
enabled rule. -/
theorem witness_PortFramesRefusedInOrder :
    (∀ f x, PortReady (ruled f (bench x))) ∧ ((0 : Byte).toNat = 0 ∧ 12 < (13 : Byte).toNat ∧
      ∀ n, (List.replicate n (0 : Byte)).length = n) ∧ frame ≠ [] ∧ frame.length ≤ 240 ∧ (calm.pos 0).state = .empty ∧
      ((bench .loaded).pos 0).state ≠ .empty ∧ [(0x01 : Byte), 0x57].length < (bench .loaded).pch.profile.codeAt + 2 ∧
      (bench .loaded).pch.profile.codeAt + 2 ≤ [(0x01 : Byte), 0x57, 0x10].length ∧
      (¬ ∃ f, RuleOf (ruled FrameRule.off (bench .loaded)) frame f) ∧
      RuleOf (ruled (ruleFor .block []) (bench .loaded)) frame (ruleFor .block []) ∧
      FirstHolds (ruleConditions (ruled (ruleFor .block []) (bench .loaded)) 0 (ruleFor .block []) frame.length) (some .blocked) ∧
      RuleOf (ruled (ruleFor .trimWrite []) (bench .loaded)) frame (ruleFor .trimWrite []) ∧
      FirstHolds (ruleConditions (ruled (ruleFor .trimWrite []) (bench .loaded)) 0 (ruleFor .trimWrite []) frame.length)
        (some .noCorrection) := by
  have allowed : ∀ a l, Allowed (ruleFor a l) ((bench .loaded).pos 0).state := fun a l => .inl ⟨rfl, rfl⟩
  refine ⟨fun f x => ⟨awake_calm, show 0 < 8 by decide⟩, ⟨by decide, by decide, fun n => List.length_replicate⟩,
      by decide, by decide, by decide, by decide, by decide, by decide,
    ?_, ruleOf_ruled _ _ rfl rfl rfl, ⟨fun h => absurd (allowed _ _) h, fun _ => ⟨fun _ => rfl,
      fun h => absurd trivial h⟩⟩,
    ruleOf_ruled _ _ rfl rfl rfl, ⟨fun h => absurd (allowed _ _) h, fun _ => ⟨fun h => ?_, fun _ => ⟨fun _ => rfl,
      fun h => absurd rfl h⟩⟩⟩⟩
  · rintro ⟨f, i, hf, hm, _⟩
    have h1 : ∀ i : Fin 16, (ruled FrameRule.off (bench .loaded)).rules[i.val] = FrameRule.off := by decide
    rw [h1 i] at hf
    rw [← hf] at hm
    exact absurd hm.1 (by decide)
  · rcases h with h | h
    · exact absurd h (by decide)
    · exact absurd rfl h

/-- A bench whose position 1 has a pending correction of both words. -/
def pendingBench : State :=
  (bench .trimmed).setPos 0 { record .trimmed with correction := some { gain := -163, phase := some (-10) } }

/-- Patches of both words, apart. -/
def bothWords : List Patch :=
  [{ offset := 2, source := .gain, little := false }, { offset := 4, source := .phase, little := true }]

theorem witness_PortFrameAccepted :
    PortReady (ruled (ruleFor .relay []) (bench .loaded)) ∧ Served (ruled (ruleFor .relay []) (bench .loaded)) ∧
      RuleOf (ruled (ruleFor .relay []) (bench .loaded)) frame (ruleFor .relay []) ∧
      FirstHolds (ruleConditions (ruled (ruleFor .relay []) (bench .loaded)) 0 (ruleFor .relay []) frame.length) none ∧
      PatchesApart (ruleFor .relay []) ∧
      RuleOf (ruled (ruleFor .trimWrite bothWords) pendingBench) frame (ruleFor .trimWrite bothWords) ∧
      FirstHolds (ruleConditions (ruled (ruleFor .trimWrite bothWords) pendingBench) 0 (ruleFor .trimWrite bothWords) frame.length)
        none ∧ PatchesApart (ruleFor .trimWrite bothWords) ∧
      (pendingBench.pos 0).correction = some { gain := -163, phase := some (-10) } ∧
        Patches (ruleFor .trimWrite bothWords) .phase := by
  have placed : PatchesPlaced (ruled (ruleFor .trimWrite bothWords) pendingBench) (ruleFor .trimWrite bothWords) frame.length := by
    intro x hx
    simp only [ruleFor, bothWords, List.mem_cons, List.not_mem_nil, or_false] at hx
    rcases hx with rfl | rfl <;> decide
  have phase : Patches (ruleFor .trimWrite bothWords) .phase := ⟨_, List.mem_cons_of_mem _ (List.mem_cons_self ..), rfl⟩
  refine ⟨⟨awake_calm, show 0 < 8 by decide⟩, served_during 0 .idle [], ruleOf_ruled _ _ rfl rfl rfl, ?_,
      List.Pairwise.nil,
    ruleOf_ruled _ _ rfl rfl rfl, ?_, ?_, rfl, phase⟩
  · exact ⟨fun h => absurd (.inl ⟨rfl, rfl⟩) h, fun _ => ⟨fun h => absurd (fun x hx => by cases hx) h,
      fun _ => ⟨fun h => absurd rfl h, fun _ => rfl⟩⟩⟩
  · exact ⟨fun h => absurd (.inr (.inl ⟨rfl, rfl⟩)) h, fun _ => ⟨fun h => absurd h (by decide),
        fun _ => ⟨fun h => absurd h (by decide),
      fun _ => ⟨fun h => absurd h (by decide), fun _ => ⟨fun h => h.elim (absurd placed) (fun h => absurd phase h.2),
      fun _ => ⟨fun h => absurd rfl h, fun _ => rfl⟩⟩⟩⟩⟩⟩
  · unfold PatchesApart
    simp only [ruleFor, bothWords]
    decide

/-- The frame of 9.8 in the module of 9.8: the channel sends it with both words and its checksum. -/
theorem test_trim_write_frame :
    let f :=
      { ruleFor .trimWrite [{ offset := 3, source := .gain, little := false }, { offset := 5, source := .phase, little := false }] with
      allowed := { loaded := true, trimmed := true, verified := false, sealed := false } }
    let s := ruled f (pendingBench)
    let m : State := { s with pch := { s.pch with profile := { s.pch.profile with checksum := .sum8, start := 1 } } }
    ((after (.port 1 1 [0x01, 0x57, 0x10, 0, 0, 0, 0, 0x67]) m).chan 0).transaction.map Transaction.frame =
      some [0x01, 0x57, 0x10, 0xFF, 0x5D, 0xFF, 0xF6, 0xB8] := by decide +kernel

theorem freeCount_calm : 1 ≤ calm.srs.freeCount := by decide +kernel

/-- A SEAL frame that no condition refuses, with a flash job running and with none. -/
theorem witness_SealFrameAccepted :
    PortReady (ruled (ruleFor .seal []) (bench .verified)) ∧ Served (ruled (ruleFor .seal []) (bench .verified)) ∧
      StoreCanonical (ruled (ruleFor .seal []) (bench .verified)) ∧
      RuleOf (ruled (ruleFor .seal []) (bench .verified)) frame (ruleFor .seal []) ∧
      FirstHolds (ruleConditions (ruled (ruleFor .seal []) (bench .verified)) 0 (ruleFor .seal []) frame.length) none ∧
      PatchesApart (ruleFor .seal []) ∧ (ruled (ruleFor .seal []) (bench .verified)).srs.queue = [] ∧
      (working (.erase 63) (ruled (ruleFor .seal []) (bench .verified))).srs.running ≠ none := by
  refine ⟨⟨awake_calm, show 0 < 8 by decide⟩, served_during 0 .idle [], canonical_reset, ruleOf_ruled _ _ rfl rfl rfl,
      ?_,
    List.Pairwise.nil, rfl, by decide⟩
  refine ⟨fun h => absurd (.inr (.inr (.inl ⟨rfl, rfl⟩))) h, fun _ => ⟨fun h => absurd h (by decide),
      fun _ => ⟨fun h => absurd h (by decide),
    fun _ => ⟨fun h => ?_, fun _ => ⟨fun h => absurd (fun x hx => by cases hx) h, fun _ => ⟨fun h => absurd rfl h,
      fun _ => rfl⟩⟩⟩⟩⟩⟩
  rcases h with h | h
  · have := freeCount_calm
    have h2 : calm.srs.freeCount = 0 := h
    omega
  · exact absurd h (by decide)

/-! ### The store -/

/-- The body of the record of seal number 5. -/
def body5 : SealBody :=
  { kind := .sealed, runId := some 7, serial := none, trimRounds := 1, gain := -163, phase := -10, verification := [(4, 6)] }

/-- The contents of a finished record. -/
def validSlot : SlotContents :=
  { header := .good header5, body := .good body5, valid := true, collected := false, note := none }

/-- A store with a record in a slot, the pointer on a slot, the highest number 5. -/
def stored (n pointer : Nat) (c : SlotContents) (s : State) : State :=
  { s with srs := { s.srs.setSlot n c with pointer := pointer, nextSeal := 6, highest := some (5, n / 16) } }

/-- The slot at a place reserved for seal number 5. -/
def reserving (n : Nat) (s : State) : State :=
  { s with srs := s.srs.setReservation n (some { number := 5, pos := 0 }) }

/-- The states a slot is classified as (R165). -/
theorem test_slot_classification :
    SlotContents.erased.classify = (.erased, none) ∧ validSlot.classify = (.valid, some 5) ∧
      { validSlot with valid := false }.classify = (.incomplete, some 5) ∧
      { validSlot with body := .spoiled }.classify = (.bad, some 5) ∧
      { validSlot with header := .spoiled }.classify = (.bad, none) ∧
      { validSlot with note := some (some 9) }.classify = (.bad, some 9) := by decide

/-- The pointer on the last slot, and a full store as far as the free count sees it. -/
theorem witness_SlotsClassifiedAndCounted :
    (stored 7 7 validSlot calm).srs.freeCount = 0 ∧ (stored 7 1023 validSlot calm).srs.freeCount = 8 := by
  decide +kernel

/-- A header job with a live flow, its request waiting on an idle or a busy channel, or with none; slots left, or
none. -/
theorem witness_HeaderJobEnds :
    (∀ s, (working (.header 3 header5) s).srs.running = some (.header 3 header5)) ∧ calm.srs.phase = .over ∧
      StoreCanonical (working (.header 3 header5) (reserving 3 (stored 7 7 validSlot calm))) ∧
      (calm.chan 0).internal = none ∧
      SealWaits (withChan { Channel.idle with relay := .waiting (request (.seal 5) true false) } calm) header5.pos 5
        (request (.seal 5) true false) ∧
      SealWaits (withChan { relaying with relay := .waiting (request (.seal 5) true false) } calm) header5.pos 5
        (request (.seal 5) true false) ∧ relaying.state ≠ .idle ∧
      (¬ ∃ r, SealWaits calm header5.pos 5 r) ∧
      ((reserving 3 calm).srs.reservation 3).isSome = true ∧ calm.srs.pointer < 1024 ∧ ¬ FlowLive calm header5 ∧
      FlowLive (calm.setFlow 0 (some { number := 5, slot := 3 })) header5 ∧ 1 ≤ calm.srs.freeCount ∧
      (stored 7 7 validSlot calm).srs.freeCount = 0 ∧ calm.bli.answers.length < 8 ∧ calm.bli.held = [] ∧
      8 ≤ (withAnswers 8 calm).bli.answers.length ∧ (holding [.slot 1] calm).bli.held ≠ [] := by
  refine ⟨fun _ => rfl, rfl, ⟨by decide, by decide⟩, by decide, ⟨rfl, rfl⟩, ⟨rfl, rfl⟩, by decide, ?_, rfl, by decide,
      ?_,
    ⟨_, rfl, rfl⟩, freeCount_calm, witness_SlotsClassifiedAndCounted.1, by decide, rfl, by decide, by decide⟩
  · rintro ⟨r, h, _⟩
    cases h
  · rintro ⟨f, h, _⟩
    cases h

/-- A body job and a full-record job on a reserved slot, with slots left and with none. -/
theorem witness_RecordJobEnds :
    (working (.body 3 header5 body5) (reserving 3 calm)).srs.running = some (.body 3 header5 body5) ∧
      (working (.fullRecord 3 header5 body5) (reserving 3 calm)).srs.running = some (.fullRecord 3 header5 body5) ∧
      StoreCanonical (working (.body 3 header5 body5) (reserving 3 calm)) ∧
      ((reserving 3 calm).srs.reservation 3).isSome = true ∧ 1 ≤ calm.srs.freeCount ∧
      (stored 7 7 validSlot calm).srs.freeCount = 0 :=
  ⟨rfl, rfl, ⟨by decide, by decide⟩, rfl, freeCount_calm, witness_SlotsClassifiedAndCounted.1⟩

/-- A record that is collected, one whose mark fails, and one above the number; a sector erased. -/
theorem witness_CollectAndEraseJobsEnd :
    StoreCanonical (stored 7 8 validSlot calm) ∧ (stored 7 8 validSlot calm).srs.phase = .over ∧
      Collectable (stored 7 8 validSlot calm).srs 5 7 ∧ ¬ Collectable (stored 7 8 validSlot calm).srs 4 7 ∧
      (7 ∉ [8]) ∧ (7 ∈ [7]) ∧ InSector 0 15 ∧ ¬ InSector 0 16 := by
  refine ⟨⟨by decide, by decide⟩, rfl, ⟨by decide, rfl, header5, rfl, by decide⟩, ?_, by decide, by decide, rfl,
    show ¬ 16 / 16 = 0 by decide⟩
  rintro ⟨_, _, h, h2, h3⟩
  cases h2
  exact absurd h3 (by decide)

theorem scanning_stored : (stored 7 8 validSlot State.reset).srs.phase = .scanning := rfl

/-- Every number in the store is that of slot 7. -/
theorem holds_only_slot7 {m j : Nat} (h : HoldsNumber (stored 7 8 validSlot State.reset).srs m j) : m = 7 ∧ j = 5 := by
  by_cases e : m = 7
  · subst e
    cases h
    exact ⟨rfl, rfl⟩
  · have : (stored 7 8 validSlot State.reset).srs.slot m = SlotContents.erased := by
      simp [stored, Srs.slot, Srs.setSlot, State.reset, Srs.reset, Table.write, Table.read, validSlot, SlotContents.erased, e]
    rw [HoldsNumber, this] at h
    cases h

/-- A job of an earlier reset that ends in the scan; an empty store, and one with a record whose next slot is erased. -/
theorem witness_ScanWaitsThenSetsFigures :
    (EndsJob (.eraseJobEnd true) (.erase 3) State.reset.srs (flashResult true (.erase 3) State.reset.srs) ∧
      EndsJob (.headerJobEnd false) (.header 3 header5) State.reset.srs
        (flashResult false (.header 3 header5) State.reset.srs) ∧
      EndsJob (.collectJobEnd [7]) (.collect 5) State.reset.srs (collected [7] 5 State.reset.srs)) ∧ (working (.erase 3) State.reset).srs.running = some (.erase 3) ∧
      (working (.erase 3) State.reset).srs.phase ≠ .over ∧ calm.srs.phase ≠ .scanning ∧
      StoreCanonical (stored 7 8 validSlot State.reset) ∧ State.reset.srs.phase = .scanning ∧
      (∀ n k, ¬ HoldsNumber State.reset.srs n k) ∧ HoldsNumber (stored 7 8 validSlot State.reset).srs 7 5 ∧
      (∀ m j, HoldsNumber (stored 7 8 validSlot State.reset).srs m j → j < 5 ∨ (j = 5 ∧ 7 ≤ m)) ∧
      (stored 7 8 validSlot State.reset).srs.slot ((7 + 1) % 1024) = SlotContents.erased ∧
      ∀ l, l < 1 → (stored 7 8 validSlot State.reset).srs.slot ((7 + l) % 1024) ≠ SlotContents.erased := by
  refine ⟨⟨.inr (.inr (.inr (.inr ⟨_, _, rfl, rfl, rfl⟩))), .inl ⟨_, _, _, rfl, rfl, rfl⟩,
      .inr (.inr (.inr (.inl ⟨_, _, rfl, rfl, rfl⟩)))⟩, rfl, by decide, by decide, ⟨by decide, by decide⟩, rfl,
      fun n k h => ?_, rfl,
    fun m j h => .inr ⟨(holds_only_slot7 h).2, by rw [(holds_only_slot7 h).1]⟩, by decide, by decide⟩
  cases h

/-- A queue with some jobs. -/
def waitingJobs (l : List Job) (s : State) : State := { s with srs := { s.srs with queue := l } }

/-- A FULL reset with a header job running for a reserved slot, and an erase queued. -/
def fullInJob : State :=
  after .fullResetAct (working (.header 3 header5) (waitingJobs [.erase 4] (reserving 3 fullWaits)))

/-- While the scan waits for the running operation the queued job and the reservation stand; at its end both are gone,
and what it programmed stays (R177). -/
theorem test_full_reset_discards_after_the_wait :
    (fullInJob.srs.phase = .waiting ∧ fullInJob.srs.queue = [.erase 4] ∧ (fullInJob.srs.reservation 3).isSome = true) ∧
      ScanBegun (after (.headerJobEnd true) fullInJob).srs ∧
      ((after (.headerJobEnd true) fullInJob).srs.slot 3).header = .good header5 := by
  unfold ScanBegun
  decide +kernel

/-- A queue with a job and none running; a record job whose slot is reserved, and one whose slot is not, with slots left
and with none. -/

theorem witness_JobStartTakesQueueHead :
    (working (.erase 3) calm).srs.running ≠ none ∧
      ((waitingJobs [.body 3 header5 body5] (reserving 3 calm)).srs.running = none ∧
        (waitingJobs [.body 3 header5 body5] (reserving 3 calm)).srs.queue = .body 3 header5 body5 :: []) ∧
      (∀ slot h b, RecordJob (.body 3 header5 body5) slot h b →
        (waitingJobs [.body 3 header5 body5] (reserving 3 calm)).srs.slotState slot = .reserved) ∧
      RecordJob (.fullRecord 3 header5 body5) 3 header5 body5 ∧
      (waitingJobs [.fullRecord 3 header5 body5] calm).srs.slotState 3 ≠ .reserved ∧
      (stored 7 7 validSlot calm).srs.freeCount = 0 ∧ 1 ≤ calm.srs.freeCount ∧ calm.srs.pointer < 1024 ∧
      StoreCanonical (waitingJobs [.fullRecord 3 header5 body5] calm) := by
  refine ⟨by decide, ⟨rfl, rfl⟩, fun slot h b hr => ?_, .inr rfl, by decide, witness_SlotsClassifiedAndCounted.1,
      freeCount_calm,
    by decide, ⟨rfl, rfl⟩⟩
  rcases hr with hr | hr
  · cases hr
    rfl
  · cases hr

/-- Slots at the end of the store and past it; slots of each state; collects and erases refused and taken. -/
theorem witness_StoreCommands :
    Ready (stored 7 8 validSlot calm) ∧ Ready State.reset ∧ State.reset.srs.phase ≠ .over ∧
      1023 < (1024 : Word16).toNat ∧
      (1023 : Word16).toNat ≤ 1023 ∧ calm.srs.highest = none ∧ (stored 7 8 validSlot calm).srs.highest = some (5, 0) ∧
      (reserving 3 calm).srs.reservation 3 = some { number := 5, pos := 0 } ∧
      (stored 7 8 { validSlot with note := some none } calm).srs.slotState 7 = .bad ∧
      (stored 7 8 { validSlot with valid := false } calm).srs.slotState 7 = .incomplete ∧
      (stored 7 8 validSlot calm).srs.slotState 7 = .valid ∧
      FirstHolds (collectConditions calm 0) (some .badArg) ∧ FirstHolds (collectConditions calm 1) none ∧
      FirstHolds (collectConditions (working (.collect 1) calm) 1) (some .busy) ∧
      FirstHolds (eraseConditions calm 64) (some .badArg) ∧ FirstHolds (eraseConditions State.reset 0) (some .busy) ∧
      calm.srs.running = none ∧ calm.srs.queue = [] := by
  refine ⟨⟨awake_calm, by decide⟩, ⟨awake_calm, by decide⟩, by decide, by decide, by decide, rfl, rfl, rfl, by decide,
      by decide,
    by decide, ⟨fun _ => rfl, fun h => absurd rfl h⟩, ⟨fun h => absurd h (by decide), fun _ => ⟨fun h => ?_,
      fun _ => rfl⟩⟩,
    ⟨fun h => absurd h (by decide), fun _ => ⟨fun _ => rfl, fun h => absurd (.inr ⟨1, .inl rfl⟩) h⟩⟩, ⟨fun _ => rfl,
      fun h => absurd (by decide) h⟩,
    ⟨fun h => absurd h (by decide), fun _ => ⟨fun _ => rfl, fun h => absurd (.inl (by decide)) h⟩⟩, rfl, rfl⟩
  rcases h with h | ⟨k, h | h⟩
  · exact absurd rfl h
  · cases h
  · cases h

/-- The sector of the newest record, a sector with an uncollected one, and a sector that is erased. -/
theorem witness_StoreErase :
    FirstHolds (eraseConditions (stored 7 8 validSlot calm) 0) (some .newestSector) ∧
      FirstHolds (eraseConditions calm 63) none := by
  have no_reservation : ∀ n, calm.srs.slotState n = .erased := fun n => rfl
  refine ⟨⟨fun h => absurd h (by decide), fun _ => ⟨fun h => ?_, fun _ => ⟨fun h => ?_, fun _ => ⟨fun _ => rfl,
      fun h => absurd ⟨_, rfl, rfl⟩ h⟩⟩⟩⟩, ⟨fun h => absurd h (by decide), fun _ => ⟨fun h => ?_, fun _ => ⟨fun h => ?_,
      fun _ => ⟨fun h => ?_, fun _ => ⟨fun h => ?_, fun _ => rfl⟩⟩⟩⟩⟩⟩
  · rcases h with h | ⟨k, h | h⟩
    · exact absurd rfl h
    · cases h
    · cases h
  · obtain ⟨n, _, h⟩ := h
    have : ∀ c : SlotContents, c.classify.1 ≠ .reserved := by
      intro c h
      unfold SlotContents.classify at h
      split at h
      · cases h
      · split at h
        · cases h
        · split at h
          · split at h
            · cases h
            · split at h <;> cases h
          · cases h
    exact absurd h (this _)
  · rcases h with h | ⟨k, h | h⟩
    · exact absurd rfl h
    · cases h
    · cases h
  · obtain ⟨n, _, h⟩ := h
    rw [no_reservation] at h
    cases h
  · obtain ⟨x, h, _⟩ := h
    cases h
  · obtain ⟨n, _, h, _⟩ := h
    rw [no_reservation] at h
    cases h

/-! ### The bench link -/

/-- A cell for a module with a kind and a payload. -/
def cellFor (dest kind : Byte) (payload : List Byte) : Cell :=
  { dest := dest, source := 0, kind := kind, tag := 9, payload := payload }

/-- A state with a forward FIFO of so many cells. -/
def forwarding (n : Nat) (s : State) : State :=
  { s with bli := { s.bli with forward := List.replicate n (cellFor 1 0xE0 [0]) } }

/-- Null, own, upward, broadcast and other cells at UP; a null cell, a full and a free forward FIFO at DOWN. -/
theorem witness_ValidCellsAreHandled :
    CellValid (cellFor 15 0xE1 (List.replicate 250 0)) ∧ calm.bli.rxUp = .hunt ∧ calm.bli.rxDown = .hunt ∧
      (cellFor 0 0x01 []).dest = 0 ∧ OwnCell calm (cellFor 1 0x01 []) ∧ Upward (cellFor 1 0xE0 []) ∧
      ¬ Upward (cellFor 1 0x01 []) ∧ decodeCommand 0x01 9 [] = some (.statusRead 9) ∧ decodeCommand 0x01 9 [0] = none ∧
      Ready calm ∧ PortReady calm ∧ decodeCommand 0x40 9 [] = none ∧
      decodeBroadcast 0x26 [] = some (.stepAbort .broadcast) ∧ decodeBroadcast 0x01 [] = none ∧
      ¬ OwnCell calm (cellFor 2 0x01 []) ∧ (forwarding 3 calm).bli.forward.length < 4 ∧
      4 ≤ (forwarding 4 calm).bli.forward.length :=
  ⟨⟨by decide, by decide, by rw [cellFor, List.length_replicate]⟩, rfl, rfl, rfl, ⟨by decide, by decide, rfl⟩, .inl rfl,
    fun h => h.elim (by decide) (by decide), rfl, rfl, ready_calm, ⟨awake_calm, by decide⟩, rfl, rfl, rfl,
    fun h => absurd h.2.2 (by decide), by decide, by decide⟩

/-- Bytes and headers that are no cell, a wrong CRC, and a receiver in the middle of a cell. -/
theorem witness_InvalidCellsAreCounted :
    calm.bli.rxUp = .hunt ∧ (0xC4 : Byte) ≠ 0xC5 ∧ CellValid (cellFor 1 0x01 []) ∧ [(0 : Byte), 0].length = 2 ∧
      [(0 : Byte), 0] ≠ (cellFor 1 0x01 []).crc ∧
      (15 < (16 : Byte).toNat ∧ 0xE1 < (0xE2 : Byte).toNat ∧ 250 < (251 : Byte).toNat) ∧
      (∃ s : State, s.bli.rxUp = .cell [1] ∧ s.bli.rxDown = .cell [2]) :=
  ⟨rfl, by decide, ⟨by decide, by decide, by decide⟩, rfl, by decide +kernel, by decide,
    { calm with bli := { calm.bli with rxUp := .cell [1], rxDown := .cell [2] } }, rfl, rfl⟩

theorem witness_TransmittersChooseNextCell :
    (∀ x, calm.bli.txUp = some x → x.out.actsFull = false) ∧
      (∃ c rest, (forwarding 4 calm).bli.forward = c :: rest) ∧ calm.bli.forward = [] ∧
      (∃ a rest, (withAnswers 8 calm).bli.answers = a :: rest) ∧ calm.bli.answers = [] ∧
      (∃ s : State, ∃ c rest, s.bli.reports = c :: rest ∧ s.bli.forward = [] ∧ s.bli.answers = []) ∧
      calm.bli.reports = [] ∧ (forwarded (cellFor 2 0x01 []) calm).bli.downBuffer = [cellFor 2 0x01 []] ∧
      calm.bli.downBuffer = [] :=
  ⟨(fun _ h => by cases h), ⟨_, _, rfl⟩, rfl, ⟨_, _, rfl⟩, rfl, ⟨reported [1] calm, _, [], rfl, rfl, rfl⟩, rfl, rfl,
    rfl⟩

/-- A state with marks of position 12, the last one. -/
def marked (m : PosMarks) (s : State) : State := s.setMarks 11 m

/-- A state with SEAL_DONE entries. -/
def sealsDone (l : List SealDone) (s : State) : State := { s with bli := { s.bli with sealDone := l } }

theorem noReport_below (m : PosMarks) : ∀ q : Pos, q < 11 → NoReport (marked m calm) q := by
  intro q hq
  have h : (marked m calm).marks q = calm.marks q := State.setMarks_marks_ne _ (ne_of_lt hq) _
  exact ⟨by rw [h]; simp [calm, State.reset, Bli.reset, State.marks, PosMarks.clear], fun e he => by cases he⟩

theorem reported_calm : Reported calm :=
  .inr ⟨⟨rfl, rfl, rfl⟩, fun p => ⟨(show ∀ p, calm.marks p = { verdict := none, identify := false, gate := false } by
    decide) p, fun e he => by cases he⟩⟩

/-- Nothing left to report, and a mark that is set with room for its report. -/
theorem witness_ReportBuiltInOrder_due :
    Reported calm ∧ ¬ Reported ({ calm with bli := { calm.bli with markStepState := true } } : State) :=
  ⟨reported_calm, fun h => h.elim (fun h => absurd h (by decide)) (fun h => absurd h.1.2.1 (by decide))⟩

/-- A mark is reported at its setting: each REF_LOST gives its report (R54, R190). -/
theorem test_report_is_built_at_its_setting :
    let s := after .refLost (watched (after .refLost (watched calm)))
    s.bli.reports.map (fun c => c.payload.take 1) = [[1], [1]] ∧ s.bli.markRefLost = false := by decide +kernel

/-- A full report queue, nothing to report, each module mark in its turn, and the marks of the last position. -/
theorem witness_ReportBuiltInOrder :
    (16 ≤ ({ calm with bli := { calm.bli with reports := List.replicate 16 (cellFor 0 0xE1 []) } } : State).bli.reports.length) ∧
      NoModuleMark calm ∧ (∀ p, NoReport calm p) ∧
      (({ calm with bli := { calm.bli with markRefLost := true } } : State).bli.markRefLost = true) ∧
      (({ calm with bli := { calm.bli with markStepState := true } } : State).bli.markRefLost = false) ∧
      ((storeEvent .scanDone calm).bli.markStore = true ∧ (storeEvent .scanDone calm).bli.markStepState = false ∧
        (storeEvent .scanDone calm).srs.phase = .over) ∧
      (∀ m, NoModuleMark (marked m calm) ∧ (∀ q : Pos, q < 11 → NoReport (marked m calm) q) ∧
        (marked m calm).marks 11 = m) ∧
      (∃ front e rest,
        (sealsDone [⟨11, 5, none, .sealed⟩, ⟨11, 6, none, .sealed⟩] calm).bli.sealDone = front ++ e :: rest ∧
        e.pos = 11 ∧ ∀ x ∈ front, x.pos ≠ 11) ∧ ∀ e ∈ calm.bli.sealDone, e.pos ≠ 11 := by
  refine ⟨by rw [List.length_replicate], ⟨rfl, rfl, rfl⟩, fun p => ⟨?_, fun e he => by cases he⟩, rfl, rfl, ⟨rfl, rfl,
      rfl⟩,
    fun m => ⟨⟨rfl, rfl, rfl⟩, noReport_below m, State.setMarks_marks_self _ _ _⟩, ⟨[], _, _, rfl, rfl, by simp⟩,
      fun e he => by cases he⟩
  exact (show ∀ p, calm.marks p = { verdict := none, identify := false, gate := false } by decide) p

/-! ### The whole machine -/

/-- The longest payloads: a template, a step list and a frame. -/
theorem witness_CommandsSurviveTheirCells :
    (∀ n, n ≤ 243 → ((Instr.templateWrite 1 0 { template with body := List.replicate n 0 }).wf = true ∧
        (encodeCommand (.templateWrite 1 0 { template with body := List.replicate n 0 })).isSome = true)) ∧
      (∀ n, n ≤ 247 → (Instr.verifyEvaluate 1 1 (List.replicate n 0)).wf = true) ∧
      ∀ n, n ≤ 249 → (Instr.port 1 1 (List.replicate n 0)).wf = true := by
  simp [Instr.wf, TemplateRecord.fits, encodeCommand]

theorem filters_gated : FiltersFit (gated (openGate 9 4294967295)) := by
  unfold FiltersFit filterFits
  decide +kernel

/-- A state in a step with a gate at its limit, and a step from it. -/
theorem witness_EveryStepKeepsInvariant :
    Invariant (gated (openGate 9 4294967295)) ∧ ∃ t, step (gated (openGate 9 4294967295)) = .next t := by
  refine ⟨⟨⟨rfl, rfl⟩, ⟨by decide, by decide, by decide, by decide⟩, ⟨by decide, by decide, by decide, by decide,
      by decide⟩,
    ⟨rfl, fun h => by cases h⟩, ⟨by decide, by decide⟩, fun p c h => ?_, ⟨fun p => ?_, fun p g h => ?_⟩,
    filters_gated⟩, _, rfl⟩
  · have h2 : ((gated (openGate 9 4294967295)).pos p).correction = none :=
      (show ∀ p, ((during 0 .running [0, 1]).pos p).correction = none by decide) p
    rw [h2] at h
    cases h
  · exact (show ∀ p, (calm.line p).tally ≤ 255 by decide +kernel) p
  · by_cases e : p = 0
    · subst e
      cases h
      decide
    · have : (gated (openGate 9 4294967295)).gate p = (during 0 .running [0, 1]).gate p := State.setGate_gate_ne _ e _
      rw [this, (show ∀ p, (during 0 .running [0, 1]).gate p = none by decide) p] at h
      cases h

/-- A channel that waits behind a seal's header, and a step from it. -/
theorem witness_EveryStepLeavesChannelsServed :
    Served (withChan { Channel.idle with relay := .waiting (request (.seal 5) true false) } calm) ∧
      ∃ t, step (withChan { Channel.idle with relay := .waiting (request (.seal 5) true false) } calm) = .next t := by
  refine ⟨fun p _ => ?_, _, rfl⟩
  by_cases e : p = 0
  · subst e
    exact ⟨rfl, fun r h => by cases h; rfl⟩
  · have : (withChan { Channel.idle with relay := .waiting (request (.seal 5) true false) } calm).chan p = calm.chan p :=
      State.setChan_chan_ne _ e _
    rw [this]
    have h := (show ∀ p, (calm.chan p).internal = none ∧ (calm.chan p).relay = .empty by decide) p
    exact ⟨h.1, fun r hr => by rw [h.2] at hr; cases hr⟩

/-- A module with nothing to report and a settled store, and a step from there. -/
theorem witness_EveryStepLeavesChannelsServed_reports :
    Settled calm ∧ Reported calm ∧ ∃ t, step calm = .next t :=
  ⟨⟨⟨fun _ _ => rfl, (fun h => by cases h), (fun h => by cases h), fun h => absurd rfl h, by decide⟩, by decide⟩,
    reported_calm, _, rfl⟩

/-- The scan waits for a running job, with another behind it. -/
def waitingScan : State :=
  { State.reset with srs := { State.reset.srs with phase := .waiting, running := some (.erase 3), queue := [.erase 4] } }

/-- A job that waits behind a running one, two positions running, and a step from there; the wait before the scan, and
the scan. -/
theorem witness_EveryStepKeepsSettled :
    (Settled (working (.erase 3) (waitingJobs [.erase 4] (during 0 .running [0, 1]))) ∧
      ∃ t, step (working (.erase 3) (waitingJobs [.erase 4] (during 0 .running [0, 1]))) = .next t) ∧
      (Settled waitingScan ∧ ∃ t, step waitingScan = .next t) ∧ Settled State.reset ∧
      State.reset.srs.phase = .scanning ∧ ∃ t, step State.reset = .next t :=
  ⟨⟨⟨⟨(fun _ h => by cases h), (fun h => by cases h), (fun h => by cases h), fun h => absurd rfl h, by decide⟩,
      by decide⟩, _, rfl⟩,
    ⟨⟨⟨(fun h => by cases h), (fun _ h => by cases h), (fun h => by cases h), by decide, by decide⟩, by decide⟩,
      _, rfl⟩,
    ⟨⟨(fun h => by cases h), (fun h => by cases h), fun _ => ⟨rfl, rfl, rfl, rfl⟩, by decide, by decide⟩, by decide⟩,
    rfl, _, rfl⟩

end Sys2Proof.Tests
end

section
/-! PROOFS. The Arithmetic Unit meets the figures the claims speak of: the rounded quotient (R82), the held error (R85),
the gate error (R84) and the gate length (R59, R86). -/

namespace Sys2Proof.Proofs.Gates

open Sys2Proof.Machine Sys2Proof.Safety

/-- Rounding is odd: the quotient nearest `-a / d` is the negative of the one nearest `a / d` (R82). -/
theorem nearestQuotient_neg {a d q : Int} (h : NearestQuotient a d q) : NearestQuotient (-a) d (-q) := by
  have flip : ∀ k : Int, |-a - d * k| = |a - d * -k| := fun k => by
    rw [← abs_neg]; congr 1; ring
  intro k
  have hk := h (-k)
  rwa [← flip, abs_neg k, ← abs_neg q, ← neg_neg q, ← flip, neg_neg q] at hk

/-- A quotient of no sign that lies at most half below and less than half above the exact one is the nearest, and the
farther from zero of two equally near (R82). -/
theorem nearestQuotient_of_bounds {a b q : Int} (hb : 0 < b) (ha : 0 ≤ a) (lower : 2 * (b * q) ≤ 2 * a + b)
    (upper : 2 * a + b < 2 * (b * q) + 2 * b) : NearestQuotient a b q := by
  have hq : 0 ≤ q := by
    by_contra hneg
    have : b * q ≤ b * (-1) := mul_le_mul_of_nonneg_left (by omega) hb.le
    omega
  intro k
  simp only [Int.abs_eq_natAbs]
  rcases lt_trichotomy k q with below | rfl | above
  · have step : b * k ≤ b * (q - 1) := mul_le_mul_of_nonneg_left (by omega) hb.le
    rw [mul_sub, mul_one] at step
    refine ⟨by omega, fun tie => ?_⟩
    have hk : 0 ≤ k := by
      by_contra hneg
      have : b * k ≤ b * (-1) := mul_le_mul_of_nonneg_left (by omega) hb.le
      omega
    omega
  · exact ⟨le_rfl, fun _ => le_rfl⟩
  · have step : b * (q + 1) ≤ b * k := mul_le_mul_of_nonneg_left (by omega) hb.le
    rw [mul_add, mul_one] at step
    exact ⟨by omega, fun tie => by omega⟩

/-- Half a divisor added before the division rounds a quotient of no sign to the nearest (R82). -/
theorem nearestQuotient_half_up {a b : Int} (hb : 0 < b) (ha : 0 ≤ a) :
    NearestQuotient a b ((2 * a + b) / (2 * b)) := by
  have parts := Int.mul_ediv_add_emod (2 * a + b) (2 * b)
  have nonneg := Int.emod_nonneg (2 * a + b) (b := 2 * b) (by omega)
  have small := Int.emod_lt_of_pos (2 * a + b) (b := 2 * b) (by omega)
  rw [mul_assoc] at parts
  exact nearestQuotient_of_bounds hb ha (by omega) (by omega)

/-- The model's rounded quotient is the nearest integer of R82. -/
theorem roundDivPos_nearest (a : Int) {b : Nat} (hb : 0 < b) : NearestInt a b (roundDivPos a b) := by
  have hb' : (0 : Int) < b := by exact_mod_cast hb
  unfold NearestInt roundDivPos
  split
  · exact nearestQuotient_half_up hb' ‹_›
  · simpa using nearestQuotient_neg (nearestQuotient_half_up hb' (a := -a) (by omega))

/-- The model's clamp holds an error within its bounds (R85). -/
theorem clampError_held (x : Int) : HeldWithin x (clampError x).1 (clampError x).2 := by
  unfold HeldWithin clampError errorBound
  split_ifs <;> simp only [true_iff, false_iff] <;> omega

/-- The model's gate error is that of R84 and R85, where the gate counted something. -/
theorem gateError_spec (n cref : Nat) {m cmut : Nat} (h : 0 < m * cmut) :
    IsGateError n cref m cmut (gateError n cref m cmut).1 (gateError n cref m cmut).2 :=
  ⟨_, roundDivPos_nearest _ h, clampError_held _⟩

/-- The smallest integer not below a quotient, by what it is compared with (R82). -/
theorem ceilDiv_le_iff {a b k : Nat} (hb : 0 < b) : ceilDiv a b ≤ k ↔ a ≤ k * b := by
  unfold ceilDiv
  rw [← Nat.lt_succ_iff, Nat.div_lt_iff_lt_mul hb, Nat.succ_mul]
  omega

/-- The auto gate length is the least that spans the minimum reference count, held at 65,535 (R86). -/
theorem autoGateLength_spec {mMin cmut cref : Nat} (h : 0 < cref) :
    (65535 * (cref * 1000) < mMin * cmut → autoGateLength mMin cmut cref = (65535, true)) ∧
    (mMin * cmut ≤ 65535 * (cref * 1000) →
      (autoGateLength mMin cmut cref).2 = false ∧ 1 ≤ (autoGateLength mMin cmut cref).1 ∧
      mMin * cmut ≤ (autoGateLength mMin cmut cref).1 * (cref * 1000) ∧
      ∀ k, 1 ≤ k → mMin * cmut ≤ k * (cref * 1000) → (autoGateLength mMin cmut cref).1 ≤ k) := by
  have spans : ∀ k, ceilDiv (mMin * cmut) (cref * 1000) ≤ k ↔ mMin * cmut ≤ k * (cref * 1000) :=
    fun k => ceilDiv_le_iff (by omega)
  unfold autoGateLength
  constructor
  · intro long
    rw [if_pos (not_le.1 fun fits => absurd ((spans _).1 fits) (not_le.2 long))]
  · intro fits
    rw [if_neg (not_lt.2 ((spans _).2 fits))]
    exact ⟨rfl, le_max_left _ _, (spans _).1 (le_max_right _ _),
      fun k one enough => max_le one ((spans k).2 enough)⟩

/-- The gate length the model latches is that of R59 and R86. -/
theorem gateLength_spec {r : StepRecord} (cmut : Nat) (h : 1 ≤ r.cref.toNat) :
    IsGateLength r cmut (gateLength r cmut).1 (gateLength r cmut).2 := by
  unfold gateLength
  constructor
  · intro fixed
    rw [fixed, if_neg (by decide)]
    exact ⟨rfl, rfl⟩
  · intro auto
    rw [auto, if_pos (by decide)]
    obtain ⟨long, fits⟩ := autoGateLength_spec (mMin := r.gateArg.toNat) (cmut := cmut) h
    exact ⟨fun x => by rw [long x]; exact ⟨rfl, rfl⟩, fits⟩

end Sys2Proof.Proofs.Gates
end

section
/-! PROOFS. An accepted edge: the line it leaves (R1 to R7), and what CANDIDATE_EDGE then does at a gate context. -/

namespace Sys2Proof.Proofs.Gates

open Sys2Proof.Machine Sys2Proof.Safety

/-! ### The line -/

/-- Two samples at a level bring the filtered value there (R2). -/
theorem settle_filtered (f v : Bool) (l : Line) : (l.settle f v).filtered = v := by
  unfold Line.settle
  split_ifs with already once
  · exact already
  · exact once
  · simp only [Line.shift, majority]
    cases f <;> cases v <;> simp

/-- A line that has to be sampled to reach a level has that level as its newest sample (R2). -/
theorem settle_newest {f v : Bool} {l : Line} (h : l.filtered ≠ v) : (l.settle f v).newest = v := by
  unfold Line.settle
  rw [if_neg h]
  split <;> rfl

theorem transition_filtered (set : LineSettings) (v : Bool) (l : Line) : (l.transition set v).filtered = v :=
  settle_filtered ..

theorem transition_newest (set : LineSettings) (v : Bool) (l : Line) : (l.transition set v).newest = v := by
  refine settle_newest ?_
  rw [settle_filtered]
  cases v <;> decide

theorem transition_lastAccepted (set : LineSettings) (v : Bool) (l : Line) :
    (l.transition set v).lastAccepted = l.lastAccepted := by
  have kept : ∀ (f v : Bool) (l : Line), (l.settle f v).lastAccepted = l.lastAccepted := by
    intro f v l
    unfold Line.settle
    split_ifs <;> rfl
  exact (kept ..).trans (kept ..)

/-- The filtered value after a candidate edge is the one the edge select picks (R4). -/
theorem pickedLevel_picks (s : State) (p : Pos) :
    PicksTo s p (pickedLevel (s.pos p).line.edge (s.line p).filtered) := by
  unfold PicksTo pickedLevel
  cases (s.pos p).line.edge <;> rfl

/-- The line of a position after an edge accepted now, with a reject tally (R4 to R6). -/
def takenLine (s : State) (p : Pos) (tally : Nat) : Line :=
  { (s.line p).transition (s.pos p).line (pickedLevel (s.pos p).line.edge (s.line p).filtered) with
    lastAccepted := some s.piu.micros, tally := tally }

theorem takenLine_taken (s : State) (p : Pos) (tally : Nat) : EdgeTaken s p (takenLine s p tally) :=
  ⟨_, pickedLevel_picks s p, ⟨transition_filtered .., transition_newest .., rfl⟩, rfl⟩

@[simp] theorem takenLine_tally (s : State) (p : Pos) (tally : Nat) : (takenLine s p tally).tally = tally := rfl

/-! ### The event -/

/-- The state in which the owners of an accepted edge find it: its line is taken, all else is as it was (R5, R7). -/
def edgeState (s : State) (p : Pos) : State := s.setLine p (takenLine s p (s.line p).tally)

@[simp] theorem edgeState_line (s : State) (p : Pos) : (edgeState s p).line p = takenLine s p (s.line p).tally :=
  State.setLine_line_self ..

/-- A candidate edge outside the dead time is accepted: it goes to its owners with its instant recorded (R5, R7). -/
theorem takeCandidate_of_accepted {s : State} {p : Pos} (h : Accepted s p) :
    takeCandidate p s =
      settle (handEdge p (s.setLine p { s.line p with lastAccepted := some s.piu.micros })) := by
  refine if_neg ?_
  cases e : (s.line p).lastAccepted with
  | none => simp
  | some t0 => simpa using h t0 e

/-- An accepted candidate edge goes to its owners (R5, R7). -/
theorem candidateEdge_of_accepted {s : State} {p : Pos} (h : Accepted s p) :
    candidateEdge p s = settle (handEdge p (edgeState s p)) := by
  have accepted : Accepted (s.setLine p ((s.line p).transition (s.pos p).line
      (pickedLevel (s.pos p).line.edge (s.line p).filtered))) p := by
    intro t0 ht
    rw [State.setLine_line_self, transition_lastAccepted] at ht
    exact h t0 ht
  rw [candidateEdge, takeCandidate_of_accepted accepted, State.setLine_setLine, State.setLine_line_self, edgeState,
    takenLine, ← transition_tally (s.pos p).line _ (s.line p)]
  rfl

/-- A served state has nothing for the end of an event to do but build reports, when the event leaves the channels as
they are (R142, R190). -/
theorem settle_of_pch {s t : State} (served : Served s) (h : t.pch = s.pch) : settle t = buildDue t := by
  have chans : ∀ p, t.chan p = s.chan p := fun p => by simp only [State.chan, h]
  rw [settle, quiesce_of_no_internal (no_internal_of_served (served_congr served chans))]

/-- An accepted edge of a position with a gate context does what the Gate Engine does with it (R7, R60, R61). -/
theorem exec_candidateEdge_gate {s : State} {p : Pos} {g : GateContext} (served : Served s) (accepted : Accepted s p)
    (hg : s.gate p = some g) {t : State} (ht : gateEdge p g (edgeState s p) = t) (chans : t.pch = s.pch) :
    exec (.candidateEdge p) s = .next (buildDue t) := by
  have handed : handEdge p (edgeState s p) = t := by
    have : (edgeState s p).gate p = some g := hg
    rw [handEdge, this, ← ht]
  have meaning : exec (.candidateEdge p) s = .next (candidateEdge p s) := rfl
  rw [meaning, candidateEdge_of_accepted accepted, handed, settle_of_pch served chans]

end Sys2Proof.Proofs.Gates
end

section
/-! PROOFS. The Gate Engine at an accepted edge: what opens, counts and closes a gate (R59 to R75), and the two claims
about edges that leave the position in its step. -/

namespace Sys2Proof.Proofs.Gates

open Sys2Proof.Machine Sys2Proof.Safety

/-! ### The acts of a gate -/

theorem activeRecord_of_runs {s : State} {a : StepRef} {r : StepRecord} (h : Runs s a r) : s.activeRecord = some r := by
  obtain ⟨active, record⟩ := h
  rw [State.activeRecord, active]
  exact record

theorem activeRecord_edgeState {s : State} {a : StepRef} {r : StepRecord} (h : Runs s a r) (p : Pos) :
    (edgeState s p).activeRecord = some r := activeRecord_of_runs (s := edgeState s p) h

theorem recordCmut_of_meter {r : PositionRecord} {mt : MeterConstants} (h : r.meter = some mt) :
    recordCmut r = mt.cmut := by
  rw [recordCmut, h]

/-- The opening of a gate replaces the context and clears the tally (R59). -/
theorem openGate_eq (p : Pos) (r : StepRecord) (g : GateContext) {s : State} {mt : MeterConstants}
    (h : (s.pos p).meter = some mt) :
    openGate p r g s = (s.setLine p { s.line p with tally := 0 }).setGate p
      (some (openedGate r mt.cmut (gateLength r mt.cmut).1 (gateLength r mt.cmut).2 s.piu.millis g)) := by
  rw [openGate, recordCmut_of_meter h]
  rfl

/-- The latest gate result and its mark after a closed gate (R74, R75). -/
theorem replaceGateResult_eq (p : Pos) (x : GateResult) (s : State) :
    replaceGateResult p x s = (s.setPos p { s.pos p with latestGate := some x }).setMarks p (gateMarks s p) := by
  have marks : (s.setPos p { s.pos p with latestGate := some x }).marks p = s.marks p := rfl
  rw [replaceGateResult, markGateResult, gateMarks, marks, State.setPos_pt_gateReports]
  cases s.pt.gateReports
  · rw [if_neg Bool.false_ne_true, Bool.or_false, ← marks]
    exact (State.setMarks_read _ p).symm
  · rw [if_pos rfl, Bool.or_true]

/-! ### The closing of a gate -/

/-- The error of a closing gate is that of R63. -/
theorem closeError_spec {l : GateLatch} (g : GateContext) (h : 1 ≤ l.cmut) : IsCloseError l g (closeError l g) := by
  unfold closeError
  refine ⟨fun absent => if_pos absent, fun counted clear => ?_⟩
  rw [if_neg (by simp only [clear, Bool.false_eq_true, or_false]; omega)]
  exact ⟨_, _, rfl, gateError_spec _ _ (Nat.mul_pos counted h)⟩

/-- The outcome of a closing gate is the first condition of R65 that holds. -/
theorem closeOutcome_spec (r : StepRecord) (tally : Nat) (g : GateContext) :
    IsOutcome r tally g (closeOutcome r tally g) := by
  unfold closeOutcome
  refine ⟨fun warm => if_pos warm, fun warmed => ?_⟩
  rw [if_neg (not_lt.2 warmed)]
  refine ⟨fun exceeded => if_pos exceeded, fun within => ?_⟩
  rw [if_neg (by rw [within]; exact Bool.false_ne_true)]
  refine ⟨fun zero => if_pos zero, fun counted => ?_⟩
  rw [if_neg (by omega)]
  exact ⟨fun noisy => if_pos noisy, fun quiet => if_neg (not_lt.2 quiet)⟩

/-- The bounds of the accepted errors take in one error more (R69). -/
theorem widenBounds_spec (e : Int) (bounds : Option (Int × Int)) :
    ∃ lo hi, widenBounds e bounds = some (lo, hi) ∧ (bounds = none → lo = e ∧ hi = e) ∧
      ∀ b, bounds = some b → lo = min b.1 e ∧ hi = max b.2 e := by
  cases bounds with
  | none => exact ⟨e, e, rfl, fun _ => ⟨rfl, rfl⟩, fun _ h => nomatch h⟩
  | some b =>
    refine ⟨min e b.1, max e b.2, rfl, fun h => (nomatch h), fun c hc => ?_⟩
    obtain rfl := Option.some.inj hc
    exact ⟨min_comm .., max_comm ..⟩

/-- A closed gate's outcome changes the counts as R66 to R69 give. -/
theorem applyOutcome_spec (o : GateOutcome) (x : Option (Int × Bool)) (g : GateContext) :
    CountsAfter o x g (g.applyOutcome o x) := by
  refine ⟨fun discarded => by rw [discarded]; rfl, fun rejected => ?_, ?_⟩
  · obtain rfl | rfl | rfl := rejected <;> rfl
  · rintro rfl e sat rfl
    obtain ⟨lo, hi, widened, first, more⟩ := widenBounds_spec e g.bounds
    exact ⟨lo, hi, by rw [← widened]; rfl, first, more⟩

/-- The context after a closing act: the counts of the outcome it finds (R63). -/
def closedContext (r : StepRecord) (l : GateLatch) (tally : Nat) (g : GateContext) : GateContext :=
  g.applyOutcome (closeOutcome r tally g) (closeError l g)

/-- What the closing act finds and makes is what R63 gives. -/
theorem gateClosed_spec (r : StepRecord) {l : GateLatch} (tally : Nat) (g : GateContext) (h : 1 ≤ l.cmut) :
    GateClosed r l tally g (closeOutcome r tally g) (closeError l g) (closedContext r l tally g) :=
  ⟨closeOutcome_spec r tally g, closeError_spec g h, applyOutcome_spec ..⟩

/-- The gate result the model records is that of R74. -/
theorem gateResultOf_eq (o : GateOutcome) (l : GateLatch) (x : Option (Int × Bool)) (tally : Nat) (g : GateContext) :
    gateResultOf o l x tally g = resultOf o l x tally g := by
  cases x <;> rfl

/-- A measurement that goes on has no verdict from the ending check (R70). -/
theorem endingVerdict_of_goesOn {r : StepRecord} {o : GateOutcome} {h : GateContext} (goes : GoesOn r o h) :
    endingVerdict r o h = none := by
  obtain ⟨within, short, left⟩ := goes
  rw [endingVerdict, if_neg within, if_neg short, if_neg (not_lt.2 left)]

/-- A closing act after which the measurement goes on records its result and opens the next gate, with the tally it
has read at 0 (R59, R63, R70). -/
theorem closeGate_of_goesOn {p : Pos} {r : StepRecord} {l : GateLatch} {g : GateContext} {s : State} {tally : Nat}
    {mt : MeterConstants} (read : (s.line p).tally = tally) (meter : (s.pos p).meter = some mt)
    (goes : GoesOn r (closeOutcome r tally g) (closedContext r l tally g)) :
    closeGate p r l g s = withGate p { s.line p with tally := 0 }
      { s.pos p with latestGate := some (resultOf (closeOutcome r tally g) l (closeError l g) tally g) }
      (openedGate r mt.cmut (gateLength r mt.cmut).1 (gateLength r mt.cmut).2 s.piu.millis
        (closedContext r l tally g)) (gateMarks s p) s := by
  subst read
  have next : endingVerdict r (closeOutcome r (s.line p).tally g)
      (g.applyOutcome (closeOutcome r (s.line p).tally g) (closeError l g)) = none := endingVerdict_of_goesOn goes
  simp only [closeGate, next, gateResultOf_eq, replaceGateResult_eq]
  rw [openGate_eq (mt := mt) p r _ (by rw [State.setMarks_pos, State.setPos_pos_self]; exact meter)]
  rfl

/-! ### An accepted edge by the state of the gate -/

theorem gateEdge_seek {p : Pos} {g : GateContext} {s : State} {r : StepRecord} (hr : s.activeRecord = some r)
    (h : g.state = .seek) : gateEdge p g s = openGate p r g s := by
  simp only [gateEdge, hr, h]

theorem gateEdge_done {p : Pos} {g : GateContext} {s : State} (h : g.state = .done) : gateEdge p g s = s := by
  unfold gateEdge
  simp only [h]
  split <;> rfl

/-- An edge in an OPEN gate is counted, and closes the gate when it brings the count to n (R61). -/
theorem gateEdge_opened {p : Pos} {g : GateContext} {l : GateLatch} {s : State} {r : StepRecord}
    (hr : s.activeRecord = some r) (h : g.state = .opened) (hl : g.latch = some l) :
    gateEdge p g s =
      if l.n ≤ g.count + 1 then closeGate p r l { g with count := g.count + 1 } s
      else s.setGate p (some { g with count := g.count + 1 }) := by
  simp only [gateEdge, hr, h, countGate, hl]

/-! ### The claims -/

/-- Settles O26: by the state of the gate context. -/
theorem edgeOpensOrCountsGate : Obligations.EdgeOpensOrCountsGate := by
  unfold Obligations.EdgeOpensOrCountsGate
  intro p a r g mt s runs served accepted hg meter hcref _
  have hr := activeRecord_edgeState runs p
  refine ⟨fun seek => ?_, fun lt opened latch inside => ?_, fun done => ?_⟩
  · refine ⟨takenLine s p 0, _, _, takenLine_taken .., rfl, gateLength_spec mt.cmut hcref,
      exec_candidateEdge_gate served accepted hg ?_ rfl⟩
    rw [gateEdge_seek hr seek, openGate_eq (s := edgeState s p) p r g meter, edgeState_line, edgeState,
      State.setLine_setLine]
    rfl
  · refine ⟨takenLine s p (s.line p).tally, takenLine_taken .., rfl,
      exec_candidateEdge_gate served accepted hg ?_ rfl⟩
    rw [gateEdge_opened hr opened latch, if_neg (not_le.2 inside)]
    rfl
  · exact ⟨takenLine s p (s.line p).tally, takenLine_taken .., rfl,
      exec_candidateEdge_gate served accepted hg (gateEdge_done done) rfl⟩

/-- Settles O27: the closing act is that of R63, and where the measurement goes on it opens the next gate. -/
theorem closingEdgeOpensNextGate : Obligations.ClosingEdgeOpensNextGate := by
  unfold Obligations.ClosingEdgeOpensNextGate
  intro p a r g lt mt s runs served accepted hg opened latch last hcmut meter hcref _
  refine ⟨_, _, _, gateClosed_spec r _ _ hcmut, fun goes => ?_⟩
  refine ⟨takenLine s p 0, _, _, takenLine_taken .., rfl, gateLength_spec mt.cmut hcref,
    exec_candidateEdge_gate served accepted hg ?_ rfl⟩
  rw [gateEdge_opened (activeRecord_edgeState runs p) opened latch, if_pos last,
    closeGate_of_goesOn (s := edgeState s p) (by rw [edgeState_line, takenLine_tally]) meter goes, edgeState_line,
    edgeState, withGate, State.setLine_setLine]
  rfl

end Sys2Proof.Proofs.Gates
end

section
/-! PROOFS. The figures of the Arithmetic Unit: the bounds a rounded quotient keeps (R82), the gate error (R84), the
statistics and the verdict of an ERROR position (R87 to R89), and the register arithmetic (R91 to R93). -/

namespace Sys2Proof.Proofs.Figures

open Sys2Proof.Machine Sys2Proof.Safety Sys2Proof.Proofs.Gates

/-! ### Rounded quotients -/

/-- Rounding keeps an integer lower bound of the exact quotient: an integer below the bound is farther away (R82). -/
theorem le_of_nearestQuotient {a d q c : Int} (hd : 0 < d) (bound : d * c ≤ a) (h : NearestQuotient a d q) :
    c ≤ q := by
  by_contra below
  have step : d * q ≤ d * (c - 1) := mul_le_mul_of_nonneg_left (by omega) hd.le
  rw [mul_sub, mul_one] at step
  have nearer := (h c).1
  simp only [Int.abs_eq_natAbs] at nearer
  omega

/-- Rounding keeps an integer bound of the magnitude of the exact quotient (R82). -/
theorem abs_le_of_nearestQuotient {a d q c : Int} (hd : 0 < d) (bound : |a| ≤ d * c) (h : NearestQuotient a d q) :
    |q| ≤ c := by
  obtain ⟨lower, upper⟩ := abs_le.1 bound
  have above : -c ≤ q := le_of_nearestQuotient hd (by rwa [mul_neg]) h
  have below : -c ≤ -q := le_of_nearestQuotient hd (by rw [mul_neg]; omega) (nearestQuotient_neg h)
  exact abs_le.2 ⟨above, neg_le_neg_iff.1 below⟩

/-- A value lies in a range of integers exactly when it lies between its ends. -/
@[simp] theorem inRangeInt_iff {lo hi n : Int} : inRangeInt lo hi n = true ↔ lo ≤ n ∧ n ≤ hi := by
  simp only [inRangeInt, Bool.and_eq_true, decide_eq_true_eq]

/-! ### The gate error -/

/-- The exact gate error is never below −1,000,000: it is least where the gate counts no meter pulse (R84). -/
theorem gateErrorQuotient_ge (n cref m cmut : Nat) :
    ((m * cmut : Nat) : Int) * (-1000000) ≤
      ((n * cref * 1000 : Nat) - (m * cmut : Nat) : Int) * 1000000 := by
  have := Int.natCast_nonneg (n * cref * 1000)
  linarith

/-- A gate with nothing counted, or with OVERRANGE set, has no error (R63). -/
theorem closeError_of_absent {l : GateLatch} {g : GateContext} (h : g.m = 0 ∨ g.overrange = true) :
    closeError l g = none := if_pos h

/-- Any other gate has the error of what it latched and counted (R63, R84). -/
theorem closeError_of_counted {l : GateLatch} {g : GateContext} (counted : 1 ≤ g.m) (within : g.overrange = false) :
    closeError l g = some (gateError l.n l.cref g.m l.cmut) := by
  refine if_neg (not_or.2 ⟨by omega, ?_⟩)
  rw [within]
  exact Bool.false_ne_true

/-- Settles O31: the rounded and held quotient is that of the Arithmetic Unit, and rounding keeps the lower bound. -/
theorem gateErrorFormula : Obligations.GateErrorFormula := by
  unfold Obligations.GateErrorFormula
  refine ⟨fun n cref m cmut hm hcmut => ?_, fun l g => ⟨closeError_of_absent, closeError_of_counted⟩⟩
  have divisor : 0 < m * cmut := Nat.mul_pos hm hcmut
  obtain ⟨x, nearest, held⟩ := gateError_spec n cref divisor
  exact ⟨x, nearest, le_of_nearestQuotient (mod_cast divisor) (gateErrorQuotient_ge n cref m cmut) nearest, held⟩

/-! ### Statistics and the verdict of an ERROR position -/

/-- With no accepted gate there are no statistics (R71). -/
theorem stepStatistics_zero (sum : Int) (bounds : Option (Int × Int)) : stepStatistics sum bounds 0 = none := by
  cases bounds <;> rfl

/-- With an accepted gate the statistics are the rounded mean and the spread (R87, R88). -/
theorem stepStatistics_of_pos (sum : Int) (b : Int × Int) {k : Nat} (hk : 0 < k) :
    stepStatistics sum (some b) k = some (roundDivPos sum k, (b.2 - b.1).toNat) := if_neg hk.ne'

/-- The statistics of a gate context are the mean of R87 and the spread of R88. -/
theorem stepStatistics_spec (g : GateContext) :
    IsStatistics g (stepStatistics g.errorSum g.bounds g.accepted) := by
  refine ⟨fun without => ?_, fun b hb accepted => ?_⟩
  · rw [without, stepStatistics_zero]
  · rw [hb, stepStatistics_of_pos _ _ accepted]
    exact ⟨_, roundDivPos_nearest _ accepted, rfl⟩

/-- The mean of errors within a bound keeps the bound: so does their sum over their number, and its rounding (R87). -/
theorem abs_mean_le {sum mean bound : Int} {b : Int × Int} {k spread : Nat} (small : |sum| ≤ bound * k)
    (h : stepStatistics sum (some b) k = some (mean, spread)) : |mean| ≤ bound := by
  obtain rfl | hk := k.eq_zero_or_pos
  · rw [stepStatistics_zero] at h
    cases h
  · rw [stepStatistics_of_pos _ _ hk] at h
    cases h
    exact abs_le_of_nearestQuotient (mod_cast hk) (by rwa [mul_comm]) (roundDivPos_nearest sum hk)

/-- The verdict the model gives a mean and a spread is that of R89. -/
theorem errorVerdict_spec (r : StepRecord) (mean : Int) (spread : Nat) :
    IsErrorVerdict r mean spread (errorVerdict r mean spread) := by
  unfold errorVerdict
  refine ⟨fun wide => if_pos wide, fun narrow inside => ?_, fun narrow outside => ?_⟩
  · rw [if_neg (not_lt.2 narrow), if_pos (inRangeInt_iff.2 inside)]
  · rw [if_neg (not_lt.2 narrow), if_neg (by rw [inRangeInt_iff]; omega)]

/-- Settles O32: the verdict, the statistics, and the bound that rounding keeps. -/
theorem statisticsAndErrorVerdict : Obligations.StatisticsAndErrorVerdict :=
  ⟨errorVerdict_spec, stepStatistics_spec, fun _ _ _ _ _ _ => abs_mean_le⟩

/-! ### The register difference and the register error -/

/-- A register that does not move back gives what it moved (R91). -/
theorem registerDifference_of_le {digits r0 r1 : Nat} (h1 : r1 < 10 ^ digits) (h : r0 ≤ r1) :
    registerDifference digits r0 r1 = r1 - r0 := by
  rw [registerDifference, Int.emod_eq_of_lt (by omega) (by omega)]
  omega

/-- A register that moves back has gone through its highest reading (R91). -/
theorem registerDifference_of_lt {digits r0 r1 : Nat} (h0 : r0 < 10 ^ digits) (h : r1 < r0) :
    registerDifference digits r0 r1 = 10 ^ digits - (r0 - r1) := by
  rw [registerDifference, ← Int.add_emod_right, Int.emod_eq_of_lt (by omega) (by omega)]
  omega

/-- The register difference is a reading of the register's digits (R91). -/
theorem registerDifference_lt (digits r0 r1 : Nat) : registerDifference digits r0 r1 < 10 ^ digits := by
  have modulus : (0 : Int) < ((10 ^ digits : Nat) : Int) := by positivity
  rw [registerDifference, Int.toNat_lt (Int.emod_nonneg _ modulus.ne')]
  exact Int.emod_lt_of_pos _ modulus

/-- The model's register error is that of R92, held as R93 says. -/
theorem registerError_spec (delta unit cref : Nat) {window divisor : Nat} (h : 0 < window * divisor) :
    IsRegisterError delta unit cref window divisor (registerError delta unit cref window divisor).1
      (registerError delta unit cref window divisor).2 :=
  ⟨_, roundDivPos_nearest _ h, clampError_held _⟩

/-- The verdict of a register error is PASS exactly within the limits (R93). -/
theorem registerVerdict_eq (r : StepRecord) (e : Int) :
    registerVerdict r e = if r.lower.toInt ≤ e ∧ e ≤ r.upper.toInt then .pass else .fail :=
  if_congr inRangeInt_iff rfl rfl

/-- Settles O33: by whether the register moves back, and by the rounding and the clamp of the Arithmetic Unit. -/
theorem registerArithmetic : Obligations.RegisterArithmetic := by
  unfold Obligations.RegisterArithmetic
  refine ⟨fun digits r0 r1 h0 h1 => ?_, fun r r0 r1 hw hd => ⟨?_, registerVerdict_eq r⟩⟩
  · exact ⟨registerDifference_of_le h1, registerDifference_of_lt h0, registerDifference_lt digits r0 r1⟩
  · exact registerError_spec _ _ _ (Nat.mul_pos hw hd)

end Sys2Proof.Proofs.Figures
end

section
/-! PROOFS. The characters of a frame: those the model sends are those of 8.1, and how long a frame takes (R133). -/

namespace Sys2Proof.Proofs.Channels

open Sys2Proof.Machine Sys2Proof.Safety

/-- An exclusive or over bits, begun with one more, is that bit against the parity of the ones among them. -/
theorem foldl_xor_eq (l : List Bool) (acc : Bool) :
    l.foldl (fun acc b => acc ^^ b) acc = (acc ^^ decide (l.count true % 2 = 1)) := by
  induction l generalizing acc with
  | nil => simp
  | cons b l ih =>
    rw [List.foldl_cons, ih, Bool.xor_assoc]
    congr 1
    cases b with
    | false => simp
    | true =>
      obtain even | odd := Nat.mod_two_eq_zero_or_one (l.count true)
      · simp [Nat.add_mod, even]
      · simp [Nat.add_mod, odd]

theorem oddOnes_eq (l : List Bool) : oddOnes l = decide (l.count true % 2 = 1) := by
  rw [oddOnes, foldl_xor_eq, Bool.false_xor]

theorem dataBits_eq_bitsOf (f : Profile) (b : Byte) : dataBits f b = bitsOf f b := by
  unfold dataBits bitsOf
  cases f.sevenBits <;> rfl

/-- The levels of a character, by the parity of its format (R133). -/
theorem charLevels_eq_levelsOf (f : Profile) (b : Byte) : charLevels f b = levelsOf f b := by
  unfold charLevels levelsOf parityBit
  rw [dataBits_eq_bitsOf]
  cases f.parity with
  | none => rfl
  | even => rw [oddOnes_eq]; rfl
  | odd =>
    have complement : (!decide ((bitsOf f b).count true % 2 = 1)) = decide ((bitsOf f b).count true % 2 = 0) := by
      rw [← decide_not, decide_eq_decide]
      omega
    rw [oddOnes_eq, complement]
    rfl

theorem wireChar_eq_sentChar (f : Profile) : wireChar f = sentChar f := by
  funext b
  simp only [wireChar, sentChar, charLevels_eq_levelsOf]

/-- A channel enters SENDING as claims write it (R133, R138). -/
theorem enterSending_eq (c : Channel) (t : Transaction) : c.enterSending t = sendingChannel c t := by
  rw [Channel.enterSending, wireChar_eq_sentChar]
  rfl

/-- A character has a start bit, its data bits, the parity bit its format may have, and a stop bit (R133). -/
theorem length_levelsOf (f : Profile) (b : Byte) :
    (levelsOf f b).length = 2 + (if f.sevenBits then 7 else 8) + (if f.parity = .none then 0 else 1) := by
  unfold levelsOf bitsOf
  cases f.sevenBits <;> cases f.parity <;> rfl

/-- A frame takes as long as its characters together (R133). -/
theorem sum_left_eq_frameMicros (f : Profile) (frame : List Byte) :
    ((frame.map (sentChar f)).map WireChar.left).sum = frameMicros f frame := by
  have left : WireChar.left ∘ sentChar f = fun _ =>
      (2 + (if f.sevenBits then 7 else 8) + (if f.parity = .none then 0 else 1)) * (f.divisor + 1) := by
    funext b
    rw [← length_levelsOf f b]
    rfl
  rw [List.map_map, left, List.map_const', List.sum_replicate, smul_eq_mul, frameMicros, mul_assoc]

end Sys2Proof.Proofs.Channels
end

section
/-! PROOFS. What an IDLE channel starts (R107, R138, R142), and the phases of a transaction (R138, R139). -/

namespace Sys2Proof.Proofs.Channels

open Sys2Proof.Machine Sys2Proof.Safety Sys2Proof.Proofs.Gates

/-! ### Owed reads -/

theorem setRead_of_reg {s : State} {p : Pos} {c : RegContext} (h : s.reg p = some c) (x : ReadState) :
    setRead p x s = s.setReg p (some { c with read := x }) := by
  rw [setRead, h]

/-- With no read owed none is placed (R107). -/
theorem placeOwed_of_not_owed {s : State} {p : Pos} (h : ∀ c, s.reg p = some c → c.read ≠ .owed) :
    placeOwed p s = s := by
  have owes : owesRead (s.reg p) = false := by
    cases hc : s.reg p with
    | none => rfl
    | some c => exact decide_eq_false (h c hc)
  rw [placeOwed, owes, Bool.false_and, if_neg Bool.false_ne_true]

/-- An occupied internal slot takes no owed read (R107). -/
theorem placeOwed_of_occupied {s : State} {p : Pos} (h : (s.chan p).internal ≠ none) : placeOwed p s = s := by
  rw [placeOwed, Option.isNone_eq_false_iff.2 (Option.ne_none_iff_isSome.1 h), Bool.and_false,
    if_neg Bool.false_ne_true]

/-- An owed read is placed in the empty internal slot of its position (R107). -/
theorem placeOwed_of_owed {s : State} {p : Pos} {c : RegContext} (hc : s.reg p = some c) (owed : c.read = .owed)
    (h : (s.chan p).internal = none) :
    placeOwed p s = (s.setChan p { s.chan p with internal := some (.registerRead s.activeDigits) }).setReg p
      (some { c with read := .placed }) := by
  have owes : owesRead (s.reg p) = true := by
    rw [hc]
    exact decide_eq_true owed
  have kept : ∀ x, (s.setChan p x).reg p = some c := fun _ => hc
  rw [placeOwed, owes, h, Option.isNone_none, Bool.and_self, if_pos rfl, setRead_of_reg (kept _)]

theorem activeDigits_of_runs {s : State} {a : StepRef} {r : StepRecord} (h : Runs s a r) :
    s.activeDigits = r.digits.toNat := by
  rw [State.activeDigits, activeRecord_of_runs h]

/-! ### The channel arbiter -/

/-- An IDLE channel with an empty internal slot starts a sendable relay request (R138, R142). -/
theorem tryStart_relay {s : State} {p : Pos} {r : RelayRequest} (idle : (s.chan p).state = .idle)
    (empty : (s.chan p).internal = none) (waits : (s.chan p).relay = .waiting r) (sendable : r.sendable = true) :
    tryStart p s = s.setChan p (sendingChannel { s.chan p with relay := .empty } (relayOf s r)) := by
  simp only [tryStart, (isIdle_iff _).2 idle, empty, waits, sendable, if_true, startRelay, enterSending_eq]
  rfl

/-- An IDLE channel starts the request in its internal slot, which then takes an owed read (R107, R138, R142). -/
theorem tryStart_template {s : State} {p : Pos} {q : TemplateRequest} (idle : (s.chan p).state = .idle)
    (waits : (s.chan p).internal = some q) (body : (s.pch.templateOf q).body ≠ []) :
    tryStart p s = placeOwed p (startedRead p q
      (s.setChan p (sendingChannel { s.chan p with internal := none } (templateTransaction s.pch q)))) := by
  simp only [tryStart, (isIdle_iff _).2 idle, waits, if_true, List.isEmpty_iff, if_neg body, startTemplate,
    enterSending_eq]

/-- A request whose template is empty sends nothing (R136). -/
theorem tryStart_of_empty_template {s : State} {p : Pos} {q : TemplateRequest}
    (waits : (s.chan p).internal = some q) (body : (s.pch.templateOf q).body = []) : tryStart p s = s := by
  unfold tryStart
  simp only [waits, body, List.isEmpty_nil, if_true, ite_self]

/-! ### The end of the event -/

/-- No template request waits at an IDLE channel (R142). -/
def IdleEmpty (s : State) : Prop := ∀ q, (s.chan q).state = .idle → (s.chan q).internal = none

/-- An event that leaves no template request at an IDLE channel ends with its reports (R142, R190). -/
theorem settle_of_idleEmpty {s : State} (h : IdleEmpty s) : settle s = buildDue s := by
  rw [settle, quiesce_of_no_internal h]

/-- No template request waits at an IDLE channel when none does at the others and the one replaced channel has none. -/
theorem idleEmpty_of_others {s t : State} {p : Pos} (others : OthersServed s p)
    (chans : ∀ q, q ≠ p → t.chan q = s.chan q) (own : (t.chan p).state = .idle → (t.chan p).internal = none) :
    IdleEmpty t := by
  intro q
  by_cases h : q = p
  · rw [h]
    exact own
  · rw [chans q h]
    exact others q h

theorem exec_transactionStart (p : Pos) (s : State) :
    exec (.transactionStart p) s = .next (settle (tryStart p s)) := rfl

/-- A TRANSACTION_START that leaves its channel in SENDING ends with its reports: nothing waits at another one. -/
theorem exec_transactionStart_sending {s t : State} {p : Pos} {c : Channel} {x : Transaction}
    (others : OthersServed s p) (started : tryStart p s = t)
    (sent : t.pch = (s.setChan p (sendingChannel c x)).pch) : exec (.transactionStart p) s = .next (buildDue t) := by
  have chans : ∀ q, t.chan q = (s.setChan p (sendingChannel c x)).chan q := fun q => by rw [State.chan, sent]; rfl
  rw [exec_transactionStart, started, settle_of_idleEmpty (idleEmpty_of_others others (fun q hq => ?_) fun idle => ?_)]
  · rw [chans, State.setChan_chan_ne _ hq]
  · rw [chans, State.setChan_chan_self] at idle
    cases idle

/-! ### What TRANSACTION_START starts -/

/-- A channel that is not IDLE, or at which nothing waits that could start, starts nothing (R142). -/
theorem transactionStart_nothing {p : Pos} {s : State} (others : OthersServed s p)
    (h : (s.chan p).state ≠ .idle ∨ NothingWaits s p) : exec (.transactionStart p) s = .next (buildDue s) := by
  have nothing : (s.chan p).state = .idle → NothingWaits s p := fun idle => h.resolve_left fun busy => busy idle
  rw [exec_transactionStart, tryStart_of_nothing nothing, settle_of_idleEmpty
    (idleEmpty_of_others others (fun _ _ => rfl) fun idle => (nothing idle).1)]

theorem transactionStart_relay {p : Pos} {s : State} {r : RelayRequest} (others : OthersServed s p)
    (idle : (s.chan p).state = .idle) (empty : (s.chan p).internal = none)
    (waits : (s.chan p).relay = .waiting r) (sendable : r.sendable = true) :
    exec (.transactionStart p) s =
      .next (buildDue (s.setChan p (sendingChannel { s.chan p with relay := .empty } (relayOf s r)))) :=
  exec_transactionStart_sending others (tryStart_relay idle empty waits sendable) rfl

/-- An IDENTIFY request starts, and with no read owed its slot stays empty (R107, R142). -/
theorem transactionStart_identify {p : Pos} {s : State} (others : OthersServed s p)
    (idle : (s.chan p).state = .idle) (waits : (s.chan p).internal = some .identify)
    (body : s.pch.identify.body ≠ []) (settled : ∀ c, s.reg p = some c → c.read ≠ .owed) :
    exec (.transactionStart p) s = .next (buildDue
      (s.setChan p (sendingChannel { s.chan p with internal := none } (identifyTransaction s)))) :=
  exec_transactionStart_sending others
    ((tryStart_template idle waits body).trans (placeOwed_of_not_owed settled)) rfl

/-- An IDENTIFY request starts, and an owed read takes the slot it left (R107, R142). -/
theorem transactionStart_identify_owed {p : Pos} {s : State} {a : StepRef} {r : StepRecord} {c : RegContext}
    (others : OthersServed s p) (idle : (s.chan p).state = .idle) (waits : (s.chan p).internal = some .identify)
    (body : s.pch.identify.body ≠ []) (runs : Runs s a r) (hc : s.reg p = some c) (owed : c.read = .owed) :
    exec (.transactionStart p) s = .next (buildDue
      ((s.setChan p (sendingChannel { s.chan p with internal := some (.registerRead r.digits.toNat) }
        (identifyTransaction s))).setReg p (some { c with read := .placed }))) := by
  refine exec_transactionStart_sending others ((tryStart_template idle waits body).trans ?_) rfl
  have kept : ∀ x, (s.setChan p x).reg p = some c := fun _ => hc
  have digits : ∀ x, (s.setChan p x).activeDigits = r.digits.toNat := fun _ => activeDigits_of_runs runs
  rw [startedRead, placeOwed_of_owed (kept _) owed (by rw [State.setChan_chan_self]; rfl), digits,
    State.setChan_chan_self, State.setChan_setChan]
  rfl

/-- A read that starts is ACTIVE (R107). -/
theorem startedRead_read {s : State} {p : Pos} {c : RegContext} (hc : s.reg p = some c) (digits : Nat) :
    startedRead p (.registerRead digits) s = s.setReg p (some { c with read := .active }) := setRead_of_reg hc _

/-- A read that has started owes no other (R107). -/
theorem placeOwed_active (s : State) (p : Pos) (c : RegContext) :
    placeOwed p (s.setReg p (some { c with read := .active })) = s.setReg p (some { c with read := .active }) := by
  refine placeOwed_of_not_owed fun d hd => ?_
  rw [State.setReg_reg_self] at hd
  cases hd
  exact ReadState.noConfusion

theorem transactionStart_read {p : Pos} {s : State} {digits : Nat} {c : RegContext} (others : OthersServed s p)
    (idle : (s.chan p).state = .idle) (waits : (s.chan p).internal = some (.registerRead digits))
    (body : s.pch.registerRead.body ≠ []) (hc : s.reg p = some c) :
    exec (.transactionStart p) s = .next (buildDue
      ((s.setChan p (sendingChannel { s.chan p with internal := none } (readTransaction s digits))).setReg p
        (some { c with read := .active }))) := by
  refine exec_transactionStart_sending others ((tryStart_template idle waits body).trans ?_) rfl
  have kept : ∀ x, (s.setChan p x).reg p = some c := fun _ => hc
  rw [startedRead_read (kept _), placeOwed_active]
  rfl

/-! ### Phases of a transaction -/

theorem exec_sendingEnd (p : Pos) (s : State) : exec (.sendingEnd p) s = .next (sendingEnd p s) := rfl

theorem exec_firstStartBit (p : Pos) (s : State) : exec (.firstStartBit p) s = .next (firstStartBit p s) := rfl

theorem exec_replyTimeout (p : Pos) (s : State) : exec (.replyTimeout p) s = .next (replyTimeout p s) := rfl

theorem exec_replyEnd (p : Pos) (chars : List RxChar) (s : State) :
    exec (.replyEnd p chars) s = .next (replyEnd p chars s) := rfl

/-- A frame sent that expects a reply is followed by the wait for it (R138). -/
theorem sendingEnd_awaits {p : Pos} {s : State} {t : Transaction} (h : (s.chan p).state = .sending t)
    (expects : t.expectReply = true) :
    exec (.sendingEnd p) s = .next (s.setChan p { s.chan p with
      state := .awaitReply t 0, wire := [], buffer := { bytes := [], truncated := false, charError := false } }) := by
  simp only [exec_sendingEnd, sendingEnd, h, expects, if_true]
  rfl

/-- The end of sending finds nothing left on its way out (assumption 21). -/
theorem sendingEnd_wire {p : Pos} {s : State} {t : Transaction} (h : (s.chan p).state = .sending t) :
    exec (.sendingEnd p) s = exec (.sendingEnd p) (s.setChan p { s.chan p with wire := [] }) := by
  simp only [exec_sendingEnd, sendingEnd, State.setChan_chan_self, State.setChan_setChan, h]

theorem sendingEnd_of_not_sending {p : Pos} {s : State} (h : ∀ t, (s.chan p).state ≠ .sending t) :
    exec (.sendingEnd p) s = .next s := by
  rw [exec_sendingEnd, sendingEnd]
  split
  · exact absurd ‹_› (h _)
  · rfl

theorem firstStartBit_receives {p : Pos} {s : State} {t : Transaction} {waited : Nat}
    (h : (s.chan p).state = .awaitReply t waited) :
    exec (.firstStartBit p) s = .next (s.setChan p { s.chan p with state := .receiving t }) := by
  simp only [exec_firstStartBit, firstStartBit, h]

theorem firstStartBit_of_not_awaiting {p : Pos} {s : State} (h : ∀ t waited, (s.chan p).state ≠ .awaitReply t waited) :
    exec (.firstStartBit p) s = .next s := by
  rw [exec_firstStartBit, firstStartBit]
  split
  · exact absurd ‹_› (h _ _)
  · rfl

theorem replyTimeout_of_not_awaiting {p : Pos} {s : State} (h : ∀ t waited, (s.chan p).state ≠ .awaitReply t waited) :
    exec (.replyTimeout p) s = .next s := by
  rw [exec_replyTimeout, replyTimeout]
  split
  · exact absurd ‹_› (h _ _)
  · rfl

theorem replyEnd_of_not_receiving {p : Pos} {s : State} (h : ∀ t, (s.chan p).state ≠ .receiving t)
    (chars : List RxChar) : exec (.replyEnd p chars) s = .next s := by
  rw [exec_replyEnd, replyEnd]
  split
  · exact absurd ‹_› (h _)
  · rfl

end Sys2Proof.Proofs.Channels
end

section
/-! PROOFS. Requests whose template is empty (R136, R142): the rounds that end them, and what BAD_READING does to an
IDENTIFY request (R146). -/

namespace Sys2Proof.Proofs.Channels

open Sys2Proof.Machine Sys2Proof.Safety

/-- A channel has a request with an empty template exactly when it is IDLE and its internal slot holds one (R136). -/
theorem emptyRequest_eq_some_iff {s : State} {p : Pos} {q : TemplateRequest} :
    emptyRequest s p = some q ↔
      (s.chan p).state = .idle ∧ (s.chan p).internal = some q ∧ (s.pch.templateOf q).body = [] := by
  unfold emptyRequest
  split
  · rename_i idle
    rw [Option.filter_eq_some_iff, List.isEmpty_iff]
    exact (and_iff_right ((isIdle_iff _).1 idle)).symm
  · rename_i busy
    exact ⟨fun h => (nomatch h), fun ⟨idle, _⟩ => absurd ((isIdle_iff _).2 idle) busy⟩

/-- Where one channel alone has such a request, the round ends that one. -/
theorem endOneEmpty_of_only {s : State} {p : Pos} {q : TemplateRequest} (waits : emptyRequest s p = some q)
    (others : OthersServed s p) : endOneEmpty s = endEmpty p q s := by
  have alone : ∀ x, (emptyRequest s x).isSome = decide (x = p) := fun x => by
    by_cases hx : x = p
    · rw [hx, waits]
      exact (decide_eq_true rfl).symm
    · rw [decide_eq_false hx, Option.isSome_eq_false_iff, Option.isNone_iff_eq_none, Option.eq_none_iff_forall_ne_some]
      intro y hy
      obtain ⟨idle, internal, -⟩ := emptyRequest_eq_some_iff.1 hy
      rw [others x hx idle] at internal
      cases internal
  have found : ∀ p : Pos, allPos.find? (fun x => decide (x = p)) = some p := by decide
  have first : nextEmpty s = some p := by
    simp only [nextEmpty, alone, found]
  rw [endOneEmpty, first]
  simp only [waits]

/-- The end of an event takes 64 rounds. -/
theorem quiesce_eq_iterate (s : State) : quiesce s = endOneEmpty^[64] s := by
  rw [quiesce, List.foldl_const, List.length_range]

/-- Where one channel alone has such a request, 63 rounds follow its end. -/
theorem quiesce_of_only {s : State} {p : Pos} {q : TemplateRequest} (waits : emptyRequest s p = some q)
    (others : OthersServed s p) : quiesce s = endOneEmpty^[63] (endEmpty p q s) := by
  rw [quiesce_eq_iterate, Function.iterate_succ_apply, endOneEmpty_of_only waits others]

/-- Rounds change nothing where no request waits at an IDLE channel. -/
theorem rounds_of_idleEmpty {s : State} (h : IdleEmpty s) (n : Nat) : endOneEmpty^[n] s = s :=
  Function.iterate_fixed (endOneEmpty_of_no_internal h) n

/-- A TRANSACTION_START of a request whose template is empty ends it, and then what that made wait (R136, R142). -/
theorem transactionStart_empty {s : State} {p : Pos} {q : TemplateRequest} (others : OthersServed s p)
    (idle : (s.chan p).state = .idle) (waits : (s.chan p).internal = some q) (body : (s.pch.templateOf q).body = []) :
    exec (.transactionStart p) s = .next (buildDue (endOneEmpty^[63] (endEmpty p q s))) := by
  rw [exec_transactionStart, tryStart_of_empty_template waits body, settle,
    quiesce_of_only (emptyRequest_eq_some_iff.2 ⟨idle, waits, body⟩) others]

/-- The outcome of an IDENTIFY request at a position that is not EMPTY (R146). -/
theorem identifyOutcome_of_loaded {s : State} {p : Pos} (h : (s.pos p).state ≠ .empty) (o : IdentifyOutcome)
    (serial : Option (List Byte)) : identifyOutcome p o serial s = identifiedAs p o serial s := by
  rw [identifyOutcome, if_neg h]
  rfl

/-- The internal slot of a position emptied (R142). -/
def slotEmptied (p : Pos) (s : State) : State := s.setChan p { s.chan p with internal := none }

@[simp] theorem slotEmptied_chan_self (p : Pos) (s : State) :
    (slotEmptied p s).chan p = { s.chan p with internal := none } := State.setChan_chan_self ..

theorem slotEmptied_idleEmpty {s : State} {p : Pos} (others : OthersServed s p) : IdleEmpty (slotEmptied p s) :=
  idleEmpty_of_others others (fun _ hq => State.setChan_chan_ne s hq _) fun _ => by rw [slotEmptied_chan_self]

/-- Without a sendable relay request nothing waits at the channel any more (R142). -/
theorem slotEmptied_nothingWaits {s : State} {p : Pos}
    (relay : ∀ r, (s.chan p).relay = .waiting r → r.sendable = false) : NothingWaits (slotEmptied p s) p := by
  rw [NothingWaits, slotEmptied_chan_self]
  exact ⟨rfl, relay⟩

/-- An IDENTIFY request whose template is empty leaves its channel IDLE where nothing else waits there (R136, R146). -/
theorem endEmpty_identify {s : State} {p : Pos} (owed : NoOwedRead s) (loaded : (s.pos p).state ≠ .empty)
    (relay : ∀ r, (s.chan p).relay = .waiting r → r.sendable = false) :
    endEmpty p .identify s = identifiedAs p .badReading none (slotEmptied p s) := by
  have unowed : placeOwed p (slotEmptied p s) = slotEmptied p s := placeOwed_of_not_owed (owed p)
  have outcome : identifyOutcome p .badReading none (slotEmptied p s) =
      identifiedAs p .badReading none (slotEmptied p s) := identifyOutcome_of_loaded (s := slotEmptied p s) loaded _ _
  rw [endEmpty, ← slotEmptied, startedRead, unowed, emptyOutcome, outcome]
  exact tryStart_of_nothing fun _ => slotEmptied_nothingWaits relay

theorem transactionStart_identify_empty {s : State} {p : Pos} (others : OthersServed s p)
    (idle : (s.chan p).state = .idle) (waits : (s.chan p).internal = some .identify) (body : s.pch.identify.body = [])
    (owed : NoOwedRead s) (loaded : (s.pos p).state ≠ .empty)
    (relay : ∀ r, (s.chan p).relay = .waiting r → r.sendable = false) :
    exec (.transactionStart p) s = .next (buildDue (identifiedAs p .badReading none (slotEmptied p s))) := by
  have ended : IdleEmpty (identifiedAs p .badReading none (slotEmptied p s)) := slotEmptied_idleEmpty others
  rw [transactionStart_empty others idle waits body, endEmpty_identify owed loaded relay, rounds_of_idleEmpty ended]

end Sys2Proof.Proofs.Channels
end

section
/-! PROOFS. A step that starts while the REGISTER_READ template is empty: what it places at the channels (R42, R107),
and that the rounds of one event end every read it placed (R136, R142). -/

namespace Sys2Proof.Proofs.Channels

open Sys2Proof.Machine Sys2Proof.Safety

/-! ### Acts of a step that leave the ports -/

/-- The queued step, the templates and the channels. -/
def portKey (s : State) : Option StepRef × Pch := (s.psc.queued, s.pch)

theorem portKey_forEach {l : List Pos} {f : Pos → State → State} (h : ∀ p s, portKey (f p s) = portKey s) (s : State) :
    portKey (forEach l f s) = portKey s := by
  induction l generalizing s with
  | nil => rfl
  | cons p l ih => exact (ih (f p s)).trans (h p s)

theorem setRead_portKey (p : Pos) (x : ReadState) (s : State) : portKey (setRead p x s) = portKey s := by
  unfold setRead
  split <;> rfl

theorem beginWork_portKey (r : StepRecord) (k : StepKind) (s : State) : portKey (beginWork r k s) = portKey s := by
  cases k with
  | error => exact portKey_forEach (fun _ _ => by rfl) _
  | creep => exact portKey_forEach (fun _ _ => by rfl) _
  | start => exact portKey_forEach (fun _ _ => by rfl) _
  | register => rfl

theorem enterRunning_portKey (s : State) : portKey (enterRunning s) = portKey s := by
  unfold enterRunning
  repeat' split
  · rfl
  · rfl
  · exact beginWork_portKey ..

theorem enterSettling_portKey (s : State) : portKey (enterSettling s) = portKey s := by
  unfold enterSettling
  split
  · rfl
  · dsimp only
    split
    · exact enterRunning_portKey _
    · rfl

theorem enterArmed_portKey (s : State) : portKey (enterArmed s) = portKey s := by
  unfold enterArmed
  split
  · rfl
  · dsimp only
    split
    · exact enterSettling_portKey _
    · rfl

theorem armIfRead_portKey (s : State) : portKey (armIfRead s) = portKey s := by
  unfold armIfRead
  split
  · exact (enterArmed_portKey _).trans (portKey_forEach (fun _ _ => setRead_portKey ..) s)
  · rfl

/-- With nothing queued the completion of a step leaves the ports. -/
theorem completeIfEmpty_portKey {s : State} (h : s.psc.queued = none) : portKey (completeIfEmpty s) = portKey s := by
  unfold completeIfEmpty completeStep
  rw [h]
  split <;> rfl

theorem giveVerdict_portKey (p : Pos) (e : Entry) (s : State) : portKey (giveVerdict p e s) = portKey s := by
  unfold giveVerdict
  repeat' split
  all_goals rfl

/-- With nothing queued a failed read leaves the ports (R108, R111). -/
theorem readOutcome_failed_portKey (p : Pos) (v : Verdict) {s : State} (h : s.psc.queued = none) :
    portKey (readOutcome p (.inl v) s) = portKey s := by
  have verdict : ∀ e c, portKey (registerVerdictActs p e c s) = portKey s := fun e c => by
    have given := giveVerdict_portKey p e (holdReading p .none c.r0 c.r1 s)
    exact (armIfRead_portKey _).trans ((completeIfEmpty_portKey ((congrArg Prod.fst given).trans h)).trans given)
  unfold readOutcome
  split
  · rfl
  · split
    · show portKey (readingFailed p v _ s) = portKey s
      unfold readingFailed
      split
      · exact verdict ..
      · rfl
    · rfl

/-! ### The step state after an arming -/

theorem enterRunning_not_readBefore {s : State} (h : s.psc.stepState ≠ .readBefore) :
    (enterRunning s).psc.stepState ≠ .readBefore := by
  unfold enterRunning
  repeat' split
  · exact h
  · exact h
  · rename_i r _ _ k _
    have begun : (beginWork r k (recordStepEvent .running (setStepState .running s))).psc.stepState = .running :=
      congrArg Prod.fst (beginWork_key r k (recordStepEvent .running (setStepState .running s)))
    rw [begun]
    exact StepState.noConfusion

theorem enterSettling_not_readBefore {s : State} (h : s.psc.stepState ≠ .readBefore) :
    (enterSettling s).psc.stepState ≠ .readBefore := by
  unfold enterSettling
  split
  · exact h
  · dsimp only
    split
    · exact enterRunning_not_readBefore StepState.noConfusion
    · exact StepState.noConfusion

theorem enterArmed_not_readBefore {s : State} {r : StepRecord} (h : s.activeRecord = some r) :
    (enterArmed s).psc.stepState ≠ .readBefore := by
  unfold enterArmed
  rw [h]
  dsimp only
  split
  · exact enterSettling_not_readBefore StepState.noConfusion
  · exact StepState.noConfusion

theorem armIfRead_of_not_readBefore {s : State} (h : s.psc.stepState ≠ .readBefore) : armIfRead s = s := by
  rw [armIfRead, decide_eq_false h, Bool.false_and, if_neg Bool.false_ne_true]

/-- A position that waits for its reading keeps the step from arming (R108). -/
theorem armIfRead_of_waiting {s : State} {q : Pos} (running : q ∈ s.psc.running) (waits : waitsForRead s q = true) :
    armIfRead s = s := by
  have any : s.psc.running.any (waitsForRead s) = true := List.any_eq_true.2 ⟨q, running, waits⟩
  rw [armIfRead, any, Bool.not_true, Bool.and_false, if_neg Bool.false_ne_true]

/-! ### Reads that become due -/

/-- Every template request at an IDLE channel is a register read with an empty template. -/
def OnlyEmptyReads (s : State) : Prop :=
  s.pch.registerRead.body = [] ∧ ∀ q, (s.chan q).state = .idle → (s.chan q).internal ≠ some .identify

/-- Between two states internal slots took register reads, and nothing else of the ports changed. -/
structure ReadsTaken (s t : State) : Prop where
  queued   : t.psc.queued = s.psc.queued
  template : t.pch.registerRead = s.pch.registerRead
  chans    : ∀ q, t.chan q = s.chan q ∨ ∃ d, t.chan q = { s.chan q with internal := some (.registerRead d) }

theorem ReadsTaken.of_portKey {s t : State} (h : portKey t = portKey s) : ReadsTaken s t := by
  obtain ⟨queued, ports⟩ := Prod.mk.inj h
  exact ⟨queued, by rw [ports], fun q => .inl (by rw [State.chan, ports]; rfl)⟩

theorem ReadsTaken.trans {s t u : State} (h : ReadsTaken s t) (k : ReadsTaken t u) : ReadsTaken s u := by
  refine ⟨k.queued.trans h.queued, k.template.trans h.template, fun q => ?_⟩
  rcases k.chans q with e | ⟨d, e⟩
  · rw [e]
    exact h.chans q
  · rcases h.chans q with e' | ⟨d', e'⟩ <;> exact .inr ⟨d, by rw [e, e']⟩

theorem ReadsTaken.state {s t : State} (h : ReadsTaken s t) (q : Pos) : (t.chan q).state = (s.chan q).state := by
  rcases h.chans q with e | ⟨d, e⟩ <;> rw [e]

theorem ReadsTaken.relay {s t : State} (h : ReadsTaken s t) (q : Pos) : (t.chan q).relay = (s.chan q).relay := by
  rcases h.chans q with e | ⟨d, e⟩ <;> rw [e]

theorem ReadsTaken.onlyEmptyReads {s t : State} (h : ReadsTaken s t) (only : OnlyEmptyReads s) : OnlyEmptyReads t := by
  refine ⟨by rw [h.template]; exact only.1, fun q idle => ?_⟩
  rw [h.state] at idle
  rcases h.chans q with e | ⟨d, e⟩
  · rw [e]
    exact only.2 q idle
  · rw [e]
    exact fun x => nomatch x

/-- A register read with an empty template starts nothing, whatever waits behind it (R136, R142). -/
theorem tryStart_of_onlyEmptyReads {s : State} {p : Pos} (only : OnlyEmptyReads s)
    (h : (s.chan p).state = .idle → (s.chan p).internal = none →
      ∀ r, (s.chan p).relay = .waiting r → r.sendable = false) : tryStart p s = s := by
  by_cases idle : (s.chan p).state = .idle
  · cases waits : (s.chan p).internal with
    | none => exact tryStart_of_nothing fun _ => ⟨waits, h idle waits⟩
    | some q =>
      cases q with
      | identify => exact absurd waits (only.2 p idle)
      | registerRead d => exact tryStart_of_empty_template waits only.1
  · exact tryStart_of_nothing fun x => absurd x idle

/-- A read that is placed or started is still waited for (R106). -/
theorem setRead_waits {x : ReadState} (h : x = .placed ∨ x = .active) (p : Pos) {s : State} {q : Pos}
    (waits : waitsForRead s q = true) : waitsForRead (setRead p x s) q = true := by
  unfold setRead
  split
  · exact waits
  · by_cases own : q = p
    · rw [waitsForRead, own, State.setReg_reg_self]
      rcases h with rfl | rfl <;> rfl
    · rw [waitsForRead, State.setReg_reg_ne _ own]
      exact waits

theorem placeOwed_waits (p : Pos) {s : State} {q : Pos} (waits : waitsForRead s q = true) :
    waitsForRead (placeOwed p s) q = true := by
  unfold placeOwed
  split
  · exact setRead_waits (.inl rfl) p (s := s.setChan p _) waits
  · exact waits

theorem startedRead_waits (p : Pos) (x : TemplateRequest) {s : State} {q : Pos} (waits : waitsForRead s q = true) :
    waitsForRead (startedRead p x s) q = true := by
  cases x with
  | identify => exact waits
  | registerRead d => exact setRead_waits (.inr rfl) p waits

/-- What a channel starts ends no wait for a reading (R106, R142). -/
theorem tryStart_waits (p : Pos) {s : State} {q : Pos} (waits : waitsForRead s q = true) :
    waitsForRead (tryStart p s) q = true := by
  unfold tryStart
  repeat' split
  · exact waits
  · exact placeOwed_waits p (startedRead_waits p _ (s := s.setChan p _) waits)
  all_goals exact waits

/-- The first read of a running position becomes due (R106, R107). -/
def ownFirstRead (p : Pos) (s : State) : State :=
  placeRead p (s.setReg p (some { read := .owed, r0 := none, r1 := none }))

theorem enterReadBefore_eq (s : State) :
    enterReadBefore s = forEach s.psc.running ownFirstRead (setStepState .readBefore s) := rfl

theorem ownFirstRead_key (p : Pos) (s : State) : stepKey (ownFirstRead p s) = stepKey s := (placeRead_key ..).trans rfl

/-- A first read that becomes due takes an empty internal slot, and stays owed behind an occupied one (R107). -/
theorem ownFirstRead_cases {s : State} (only : OnlyEmptyReads s) (p : Pos) :
    (∃ d, ownFirstRead p s = (s.setChan p { s.chan p with internal := some (.registerRead d) }).setReg p
      (some { read := .placed, r0 := none, r1 := none })) ∨
    ownFirstRead p s = s.setReg p (some { read := .owed, r0 := none, r1 := none }) := by
  have due : ∀ x, ((s.setReg p x).chan p).internal = (s.chan p).internal := fun _ => rfl
  have only' : ∀ x, OnlyEmptyReads (s.setReg p x) := fun _ => only
  by_cases empty : (s.chan p).internal = none
  · left
    refine ⟨s.activeDigits, ?_⟩
    rw [ownFirstRead, placeRead, placeOwed_of_owed (State.setReg_reg_self ..) rfl empty, tryStart_of_empty_template]
    · exact State.setReg_setReg (s.setChan p { s.chan p with internal := some (.registerRead s.activeDigits) }) ..
    · exact congrArg Channel.internal (State.setChan_chan_self ..)
    · exact only.1
  · right
    rw [ownFirstRead, placeRead, placeOwed_of_occupied (by rw [due]; exact empty),
      tryStart_of_onlyEmptyReads (only' _) fun _ x => absurd x (by rw [due]; exact empty)]

theorem ownFirstRead_readsTaken {s : State} (only : OnlyEmptyReads s) (p : Pos) : ReadsTaken s (ownFirstRead p s) := by
  rcases ownFirstRead_cases only p with ⟨d, e⟩ | e
  · rw [e]
    refine ⟨rfl, rfl, fun q => ?_⟩
    by_cases h : q = p
    · exact .inr ⟨d, by rw [h]; exact State.setChan_chan_self ..⟩
    · exact .inl (State.setChan_chan_ne _ h _)
  · rw [e]
    exact .of_portKey rfl

/-- After it that position waits for its reading, and any other as before (R106). -/
theorem ownFirstRead_waits {s : State} {p q : Pos} (h : q = p ∨ waitsForRead s q = true) :
    waitsForRead (ownFirstRead p s) q = true := by
  refine tryStart_waits p (placeOwed_waits p ?_)
  by_cases own : q = p
  · rw [waitsForRead, own, State.setReg_reg_self]
    rfl
  · rw [waitsForRead, State.setReg_reg_ne _ own]
    exact h.resolve_left own

theorem firstReads_readsTaken {s : State} (only : OnlyEmptyReads s) (l : List Pos) :
    ReadsTaken s (forEach l ownFirstRead s) := by
  induction l generalizing s with
  | nil => exact .of_portKey rfl
  | cons p l ih =>
    have first := ownFirstRead_readsTaken only p
    exact first.trans (ih (first.onlyEmptyReads only))

theorem firstReads_wait {s : State} {l : List Pos} {q : Pos} (h : q ∈ l ∨ waitsForRead s q = true) :
    waitsForRead (forEach l ownFirstRead s) q = true := by
  induction l generalizing s with
  | nil => exact h.resolve_left List.not_mem_nil
  | cons p l ih =>
    rw [List.mem_cons, or_assoc] at h
    rcases h with own | later | waits
    · exact ih (.inr (ownFirstRead_waits (.inl own)))
    · exact ih (.inl later)
    · exact ih (.inr (ownFirstRead_waits (.inr waits)))

/-! ### The start of a step -/

/-- A step made active with its running set (R27, R42). -/
def activated (r : StepRef) (s : State) : State :=
  { s with psc := { s.psc with active := some r, running := s.eligibleSet } }

theorem activeRecord_of_activeKind {s : State} {k : StepKind} (h : s.activeKind = some k) :
    ∃ x, s.activeRecord = some x := by
  rw [State.activeKind] at h
  cases record : s.activeRecord with
  | none =>
    rw [record] at h
    cases h
  | some x => exact ⟨x, rfl⟩

/-- A step that starts completes at once, reads first, or arms (R42). -/
theorem startStep_cases (r : StepRef) (s : State) :
    startStep r s = finishStep (activated r s) ∨
    ((activated r s).psc.running ≠ [] ∧ startStep r s = enterReadBefore (activated r s)) ∨
    ∃ x, (activated r s).activeRecord = some x ∧ startStep r s = enterArmed (activated r s) := by
  unfold startStep
  by_cases nobody : s.eligibleSet = []
  · exact .inl (if_pos nobody)
  · rw [if_neg nobody]
    split
    · exact .inl rfl
    · exact .inr (.inl ⟨nobody, rfl⟩)
    · obtain ⟨x, record⟩ := activeRecord_of_activeKind ‹_›
      exact .inr (.inr ⟨x, record, rfl⟩)

/-- A step that starts while the REGISTER_READ template is empty does nothing at the channels but place reads. -/
theorem startStep_readsTaken (r : StepRef) {s : State} (only : OnlyEmptyReads s) : ReadsTaken s (startStep r s) := by
  rcases startStep_cases r s with e | ⟨-, e⟩ | ⟨x, -, e⟩ <;> rw [e]
  · exact .of_portKey rfl
  · have entered : ReadsTaken s (setStepState .readBefore (activated r s)) := .of_portKey rfl
    rw [enterReadBefore_eq]
    exact entered.trans (firstReads_readsTaken (entered.onlyEmptyReads only) _)
  · exact .of_portKey (enterArmed_portKey _)

/-- A step that has just started waits for its readings, if it has any to wait for (R106, R108). -/
theorem armIfRead_startStep (r : StepRef) (s : State) : armIfRead (startStep r s) = startStep r s := by
  rcases startStep_cases r s with e | ⟨somebody, e⟩ | ⟨x, record, e⟩ <;> rw [e]
  · exact armIfRead_of_not_readBefore StepState.noConfusion
  · obtain ⟨q, hq⟩ := List.exists_mem_of_ne_nil _ somebody
    have running : (enterReadBefore (activated r s)).psc.running = (activated r s).psc.running :=
      congrArg (fun k => k.2.2) (stepKey_forEach ownFirstRead_key (setStepState .readBefore (activated r s)))
    refine armIfRead_of_waiting (q := q) (by rw [running]; exact hq) ?_
    rw [enterReadBefore_eq]
    exact firstReads_wait (.inl hq)
  · exact armIfRead_of_not_readBefore (enterArmed_not_readBefore record)

/-! ### The rounds that end the reads -/

/-- The positions whose internal slot holds a request. -/
def occupied (s : State) : Finset Pos := Finset.univ.filter fun q => (s.chan q).internal ≠ none

/-- The read request of one position is over: its slot is empty, and no other channel changed. -/
structure ReadOver (s t : State) (p : Pos) : Prop where
  queued   : t.psc.queued = s.psc.queued
  template : t.pch.registerRead = s.pch.registerRead
  own      : (t.chan p).internal = none
  others   : ∀ q, q ≠ p → t.chan q = s.chan q

/-- A channel with an empty internal slot starts a relay request or nothing (R142). -/
theorem tryStart_of_no_internal {s : State} {p : Pos} (empty : (s.chan p).internal = none) :
    tryStart p s = s ∨
      ∃ r, tryStart p s = s.setChan p (sendingChannel { s.chan p with relay := .empty } (relayOf s r)) := by
  by_cases starts : (s.chan p).state = .idle ∧ ∃ r, (s.chan p).relay = .waiting r ∧ r.sendable = true
  · obtain ⟨idle, r, waits, sendable⟩ := starts
    exact .inr ⟨r, tryStart_relay idle empty waits sendable⟩
  · refine .inl (tryStart_of_nothing fun idle => ⟨empty, fun r waits => ?_⟩)
    exact Bool.eq_false_iff.2 fun sendable => starts ⟨idle, r, waits, sendable⟩

/-- A read that has just started owes no other, with or without a register context (R107). -/
theorem placeOwed_startedRead (p : Pos) (d : Nat) (s : State) :
    placeOwed p (startedRead p (.registerRead d) s) = setRead p .active s := by
  cases hc : s.reg p with
  | none =>
    have started : startedRead p (.registerRead d) s = s := by rw [startedRead, setRead, hc]
    rw [started, setRead, hc, placeOwed_of_not_owed]
    rw [hc]
    exact fun c h => nomatch h
  | some c => rw [startedRead_read hc, placeOwed_active, setRead_of_reg hc]

/-- The outcome of a read whose template is empty is its failure (R108, R136). -/
theorem endEmpty_registerRead (p : Pos) (d : Nat) (s : State) :
    endEmpty p (.registerRead d) s =
      tryStart p (readOutcome p (.inl .badReading) (setRead p .active (slotEmptied p s))) := by
  rw [endEmpty, placeOwed_startedRead, emptyOutcome, slotEmptied]

theorem endEmpty_readOver {s : State} (p : Pos) (d : Nat) (unqueued : s.psc.queued = none) :
    ReadOver s (endEmpty p (.registerRead d) s) p := by
  rw [endEmpty_registerRead]
  have read : portKey (setRead p .active (slotEmptied p s)) = portKey (slotEmptied p s) := setRead_portKey ..
  have kept := (readOutcome_failed_portKey p .badReading ((congrArg Prod.fst read).trans unqueued)).trans read
  generalize readOutcome p (.inl .badReading) (setRead p .active (slotEmptied p s)) = u at kept ⊢
  obtain ⟨queued, ports⟩ := Prod.mk.inj kept
  have chans : ∀ q, u.chan q = (slotEmptied p s).chan q := fun q => by rw [State.chan, ports]; rfl
  have ended : ReadOver s u p :=
    ⟨queued, by rw [ports]; rfl, by rw [chans, slotEmptied_chan_self],
      fun q hq => by rw [chans]; exact State.setChan_chan_ne s hq _⟩
  rcases tryStart_of_no_internal ended.own with e | ⟨r, e⟩ <;> rw [e]
  · exact ended
  · refine ⟨ended.queued, ended.template, ?_, fun q hq => ?_⟩
    · rw [State.setChan_chan_self]
      exact ended.own
    · rw [State.setChan_chan_ne _ hq]
      exact ended.others q hq

theorem ReadOver.onlyEmptyReads {s t : State} {p : Pos} (h : ReadOver s t p) (only : OnlyEmptyReads s) :
    OnlyEmptyReads t := by
  refine ⟨by rw [h.template]; exact only.1, fun q => ?_⟩
  by_cases own : q = p
  · rw [own, h.own]
    exact fun _ x => nomatch x
  · rw [h.others q own]
    exact only.2 q

/-- Each round that ends a read empties a slot. -/
theorem ReadOver.occupied_lt {s t : State} {p : Pos} (h : ReadOver s t p) (waits : (s.chan p).internal ≠ none) :
    (occupied t).card < (occupied s).card := by
  refine Finset.card_lt_card ⟨fun q hq => ?_, fun sub => ?_⟩
  · have holds := (Finset.mem_filter.1 hq).2
    have other : q ≠ p := fun own => holds (own ▸ h.own)
    rw [h.others q other] at holds
    exact Finset.mem_filter.2 ⟨Finset.mem_univ _, holds⟩
  · exact (Finset.mem_filter.1 (sub (Finset.mem_filter.2 ⟨Finset.mem_univ p, waits⟩))).2 h.own

/-- A round ends one request, or there is none to end. -/
theorem endOneEmpty_cases (s : State) :
    endOneEmpty s = s ∨ ∃ p q, emptyRequest s p = some q ∧ endOneEmpty s = endEmpty p q s := by
  unfold endOneEmpty
  split
  · exact .inl rfl
  · split
    · exact .inl rfl
    · exact .inr ⟨_, _, ‹_›, rfl⟩

/-- As many rounds as there are occupied slots end every read (R142). -/
theorem rounds_stable {s : State} {n : Nat} (only : OnlyEmptyReads s) (unqueued : s.psc.queued = none)
    (enough : (occupied s).card ≤ n) : endOneEmpty (endOneEmpty^[n] s) = endOneEmpty^[n] s := by
  induction n generalizing s with
  | zero =>
    refine endOneEmpty_of_no_internal fun q _ => ?_
    by_contra waits
    have member : q ∈ occupied s := Finset.mem_filter.2 ⟨Finset.mem_univ _, waits⟩
    rw [Finset.card_eq_zero.1 (Nat.le_zero.1 enough)] at member
    exact absurd member (Finset.notMem_empty q)
  | succ n ih =>
    rcases endOneEmpty_cases s with fixed | ⟨p, q, waits, ended⟩
    · rw [Function.iterate_fixed fixed, fixed]
    · obtain ⟨idle, internal, -⟩ := emptyRequest_eq_some_iff.1 waits
      cases q with
      | identify => exact absurd internal (only.2 p idle)
      | registerRead d =>
        have finished := endEmpty_readOver p d unqueued
        have fewer := finished.occupied_lt (by rw [internal]; exact Option.some_ne_none _)
        rw [Function.iterate_succ_apply, ended]
        exact ih (finished.onlyEmptyReads only) (finished.queued.trans unqueued) (by omega)

/-- The rounds of the end of an event are more than enough for the reads of twelve positions: one fewer does as well. -/
theorem quiesce_of_onlyEmptyReads {s : State} (only : OnlyEmptyReads s) (unqueued : s.psc.queued = none) :
    quiesce s = endOneEmpty^[63] s := by
  have few : (occupied s).card ≤ 63 := (Finset.card_le_univ _).trans (by decide)
  rw [quiesce_eq_iterate, Function.iterate_succ_apply', rounds_stable only unqueued few]

end Sys2Proof.Proofs.Channels
end

section
/-! PROOFS. The verdict of a failed register read (R108, R111), what it leaves of the step (R46, R47), and the claim
about the start and the phases of transactions. -/

namespace Sys2Proof.Proofs.Channels

open Sys2Proof.Machine Sys2Proof.Safety

/-! ### A verdict -/

/-- The state after a running position received its verdict and left the running set (R28, R46). -/
def verdictTaken (p : Pos) (n : Fin 32) (e : Entry) (s : State) : State := leaveRunning p (recordVerdict p n e s)

theorem giveVerdict_of_running {s : State} {p : Pos} {a : StepRef} (running : p ∈ s.psc.running)
    (active : s.psc.active = some a) (e : Entry) : giveVerdict p e s = verdictTaken p a.slot e s := by
  rw [giveVerdict, State.isRunning, decide_eq_true running, if_pos rfl, active]
  rfl

/-- The record the model makes of a verdict is that of R28 and R29. -/
theorem demote_recorded (n : Fin 32) (e : Entry) (r : PositionRecord) :
    demote { r with results := r.results.set n.val (some e), runId := some e.runId } = recorded n e r := by
  unfold demote recorded
  dsimp only
  split <;> rfl

theorem verdictTaken_judged (p : Pos) (n : Fin 32) (e : Entry) (s : State) : Judged s (verdictTaken p n e s) p n e := by
  refine ⟨?_, State.setMarks_marks_self ..⟩
  have record : (verdictTaken p n e s).pos p =
      demote { s.pos p with results := (s.pos p).results.set n.val (some e), runId := some e.runId } :=
    State.setPos_pos_self ..
  rw [record, demote_recorded]

theorem verdictTaken_others {p q : Pos} (h : q ≠ p) (n : Fin 32) (e : Entry) (s : State) :
    (verdictTaken p n e s).pos q = s.pos q ∧ (verdictTaken p n e s).marks q = s.marks q :=
  ⟨State.setPos_pos_ne s h _, State.setMarks_marks_ne _ h _⟩

/-! ### What a verdict leaves of the step -/

/-- The step of a position that has left the running set: over when that is empty, and else as it was (R46, R47). -/
def stepLeft (s : State) : State := if s.psc.running = [] then finishStep s else s

theorem stepLeft_cases (s : State) :
    (s.psc.running = [] ∧ stepLeft s = finishStep s) ∨ (s.psc.running ≠ [] ∧ stepLeft s = s) := by
  by_cases h : s.psc.running = []
  · exact .inl ⟨h, if_pos h⟩
  · exact .inr ⟨h, if_neg h⟩

theorem stepLeft_judged {s t : State} {p : Pos} {n : Fin 32} {e : Entry} (h : Judged s t p n e) :
    Judged s (stepLeft t) p n e := by
  rcases stepLeft_cases t with ⟨-, k⟩ | ⟨-, k⟩ <;> rw [k] <;> exact h

/-- The end of a step (R47). -/
theorem finishStep_stepOver {s t : State} (last : t.psc.active = s.psc.active)
    (keeps : t.psc.plan = s.psc.plan ∧ t.psc.queued = s.psc.queued) : StepOver s (finishStep t) :=
  { state := ⟨rfl, rfl, rfl⟩
    last := last
    timer := ⟨rfl, rfl, rfl⟩
    event := ⟨rfl, rfl⟩
    work := fun _ => ⟨atPos_replicate .., atPos_replicate .., atPos_replicate ..⟩
    keeps := keeps }

/-- Another running position keeps the step going (R46). -/
theorem filter_ne_nil_iff {l : List Pos} {p : Pos} :
    l.filter (fun q => decide (q ≠ p)) ≠ [] ↔ ∃ q ∈ l, q ≠ p := by
  simp only [ne_eq, List.filter_eq_nil_iff, decide_eq_true_eq, not_forall, not_not, exists_prop]

/-- A running position leaves the step with its verdict, its register context replaced (R28, R46, R47). -/
theorem verdictTaken_leavesStep (p : Pos) (n : Fin 32) (e : Entry) (c : Option RegContext) (s : State) :
    LeavesStep s (stepLeft (verdictTaken p n e (s.setReg p c))) p := by
  rcases stepLeft_cases (verdictTaken p n e (s.setReg p c)) with ⟨nobody, k⟩ | ⟨somebody, k⟩ <;> rw [k]
  · have last : ¬ ∃ q ∈ s.psc.running, q ≠ p := fun h => filter_ne_nil_iff.2 h nobody
    exact {
      beside := ⟨⟨rfl, rfl⟩, ⟨rfl, rfl, rfl⟩, rfl, rfl, ⟨rfl, rfl⟩, ⟨rfl, rfl, rfl, rfl, rfl, rfl⟩⟩
      others := fun q h => ⟨(verdictTaken_others h n e _).1, (verdictTaken_others h n e _).2, rfl⟩
      chans := rfl
      goesOn := fun h => absurd h last
      isOver := fun _ => finishStep_stepOver rfl ⟨rfl, rfl⟩ }
  · obtain ⟨x, hx, other⟩ := filter_ne_nil_iff.1 somebody
    exact {
      beside := ⟨⟨rfl, rfl⟩, ⟨rfl, rfl, rfl⟩, rfl, rfl, ⟨rfl, rfl⟩, ⟨rfl, rfl, rfl, rfl, rfl, rfl⟩⟩
      others := fun q h => ⟨(verdictTaken_others h n e _).1, (verdictTaken_others h n e _).2, rfl⟩
      chans := rfl
      goesOn := fun _ => ⟨rfl, rfl, rfl, rfl, rfl, rfl, rfl, fun q h => ⟨rfl, rfl, State.setReg_reg_ne s h c⟩⟩
      isOver := fun h => absurd (h x hx) other }

/-! ### What follows a verdict -/

theorem waitsForRead_iff {s : State} {q : Pos} : waitsForRead s q = true ↔ Awaits s q := by
  unfold waitsForRead Awaits
  cases s.reg q with
  | none => exact ⟨fun h => (nomatch h), fun ⟨_, h, _⟩ => nomatch h⟩
  | some c => simp only [Bool.or_eq_true, decide_eq_true_eq, or_assoc, Option.some.injEq, exists_eq_left']

/-- While the running set has a position, a step does not complete, and while one is awaited it does not arm (R46,
R108). -/
theorem afterVerdict_goesOn {s : State} (somebody : s.psc.running ≠ [])
    (awaited : s.psc.stepState = .readBefore → ∃ q ∈ s.psc.running, Awaits s q) : afterVerdict s = s := by
  have goes : completeIfEmpty s = s := by
    rw [completeIfEmpty, List.isEmpty_eq_false_iff.2 somebody, Bool.and_false, if_neg Bool.false_ne_true]
  rw [afterVerdict, goes]
  by_cases reads : s.psc.stepState = .readBefore
  · obtain ⟨q, running, waits⟩ := awaited reads
    exact armIfRead_of_waiting running (waitsForRead_iff.2 waits)
  · exact armIfRead_of_not_readBefore reads

theorem completeIfEmpty_of_last {s : State} (active : s.stepActive = true) (nobody : s.psc.running = []) :
    completeIfEmpty s = completeStep s := by
  rw [completeIfEmpty, active, nobody, List.isEmpty_nil, Bool.and_self, if_pos rfl]

/-- The last verdict ends a step with none queued (R46, R47). -/
theorem afterVerdict_last {s : State} (active : s.stepActive = true) (nobody : s.psc.running = [])
    (unqueued : s.psc.queued = none) : afterVerdict s = finishStep s := by
  rw [afterVerdict, completeIfEmpty_of_last active nobody, completeStep, unqueued]
  exact armIfRead_of_not_readBefore StepState.noConfusion

/-- The last verdict starts the queued step (R47). -/
theorem afterVerdict_queued {s : State} {q : StepRef} (active : s.stepActive = true) (nobody : s.psc.running = [])
    (queued : s.psc.queued = some q) : afterVerdict s = startStep q (emptyQueue (finishStep s)) := by
  rw [afterVerdict, completeIfEmpty_of_last active nobody, completeStep, queued]
  exact armIfRead_startStep ..

theorem stepOn_of_not_complete {s : State} (h : s.psc.stepState ≠ .complete) : stepOn s = s := by
  unfold stepOn
  split
  · exact absurd ‹_› h
  · rfl

theorem stepOn_of_unqueued {s : State} (h : s.psc.queued = none) : stepOn s = s := by
  unfold stepOn
  split
  · rename_i queued
    rw [h] at queued
    cases queued
  · rfl

theorem stepOn_of_queued {s : State} {q : StepRef} (complete : s.psc.stepState = .complete)
    (queued : s.psc.queued = some q) : stepOn s = quiesce (startStep q (emptyQueue s)) := by
  simp only [stepOn, complete, queued]

theorem not_complete_of_stepActive {s : State} (h : s.stepActive = true) : s.psc.stepState ≠ .complete := by
  intro complete
  rw [State.stepActive, complete] at h
  cases h

/-- With no request at an IDLE channel, the reads a next step places are the only ones to come. -/
theorem onlyEmptyReads_of_idleEmpty {s : State} (body : s.pch.registerRead.body = []) (h : IdleEmpty s) :
    OnlyEmptyReads s :=
  ⟨body, fun q idle => by rw [h q idle]; exact fun x => nomatch x⟩

/-- After a verdict that left no request at an IDLE channel, the event goes on with the next step, if one is queued and
this one is over, and the reads that it places end on the same event (R47, R136, R142). -/
theorem rounds_afterVerdict {s : State} {p : Pos} (active : s.stepActive = true)
    (awaited : s.psc.stepState = .readBefore → ∃ q ∈ s.psc.running, Awaits s q) (idle : IdleEmpty s)
    (body : s.pch.registerRead.body = []) (relay : ∀ r, (s.chan p).relay = .waiting r → r.sendable = false) :
    endOneEmpty^[63] (tryStart p (afterVerdict s)) = stepOn (stepLeft s) := by
  have rests : ∀ t : State, t.pch = s.pch → endOneEmpty^[63] (tryStart p t) = t := fun t ports => by
    have chans : ∀ q, t.chan q = s.chan q := fun q => by rw [State.chan, ports]; rfl
    have idle' : IdleEmpty t := fun q => by rw [chans]; exact idle q
    rw [tryStart_of_nothing fun h => ⟨idle' p h, by rw [chans]; exact relay⟩, rounds_of_idleEmpty idle']
  rcases stepLeft_cases s with ⟨nobody, left⟩ | ⟨somebody, left⟩ <;> rw [left]
  · cases queued : s.psc.queued with
    | none =>
      rw [afterVerdict_last active nobody queued, rests (finishStep s) rfl,
        stepOn_of_unqueued (s := finishStep s) queued]
    | some q =>
      have only : OnlyEmptyReads (emptyQueue (finishStep s)) := onlyEmptyReads_of_idleEmpty (s := s) body idle
      have reads := startStep_readsTaken q only
      have starts : tryStart p (startStep q (emptyQueue (finishStep s))) = startStep q (emptyQueue (finishStep s)) :=
        tryStart_of_onlyEmptyReads (reads.onlyEmptyReads only) fun _ _ => by rw [reads.relay]; exact relay
      rw [afterVerdict_queued active nobody queued, stepOn_of_queued (s := finishStep s) rfl queued, starts,
        quiesce_of_onlyEmptyReads (reads.onlyEmptyReads only) reads.queued]
  · rw [afterVerdict_goesOn somebody awaited, rests s rfl, stepOn_of_not_complete (not_complete_of_stepActive active)]

/-! ### A failed register read -/

/-- The entry of a failed read, with the reading held by then (R108, R111). -/
def failedEntry (run : Word32) (v : Verdict) (c : RegContext) : Entry :=
  { verdict := v, runId := run, saturated := false, nClamped := false, fields := .register c.r0 none none }

/-- The state after the verdict of a failed read, which leaves the context without a read (R106, R108, R111). -/
def failedRead (p : Pos) (a : StepRef) (v : Verdict) (c : RegContext) (s : State) : State :=
  verdictTaken p a.slot (failedEntry a.run v c) (s.setReg p (some { c with read := .none }))

/-- A failed read of an ACTIVE context in a reading phase gives its position a verdict (R108, R111). -/
theorem readOutcome_failed {s : State} {p : Pos} {a : StepRef} {c : RegContext} (v : Verdict)
    (hc : s.reg p = some c) (started : c.read = .active) (phase : s.readingPhase = true)
    (running : p ∈ s.psc.running) (active : s.psc.active = some a) :
    readOutcome p (.inl v) s = afterVerdict (failedRead p a v c s) := by
  have run : s.activeRun = a.run := by rw [State.activeRun, active]
  rw [readOutcome, hc]
  dsimp only
  rw [if_pos started, readingFailed, if_pos phase, registerVerdictActs, run,
    giveVerdict_of_running (s := holdReading p .none c.r0 c.r1 s) running active]
  rfl

/-- A read whose template is empty gives BAD_READING (R108, R111, R136). -/
theorem endEmpty_badReading {s : State} {p : Pos} {a : StepRef} {c : RegContext} (digits : Nat)
    (hc : s.reg p = some c) (phase : s.readingPhase = true) (running : p ∈ s.psc.running)
    (active : s.psc.active = some a) :
    endEmpty p (.registerRead digits) s =
      tryStart p (afterVerdict (failedRead p a .badReading c (slotEmptied p s))) := by
  have started : setRead p .active (slotEmptied p s) = (slotEmptied p s).setReg p (some { c with read := .active }) :=
    setRead_of_reg (s := slotEmptied p s) hc _
  rw [endEmpty_registerRead, started, readOutcome_failed (s := (slotEmptied p s).setReg p _) .badReading
    (State.setReg_reg_self ..) rfl phase running active, failedRead, State.setReg_setReg]
  rfl

/-- A failed read of a position ends no READ_BEFORE: another one is awaited, or the step is in READ_AFTER (R108, R111). -/
def FailsWithin (s : State) (p : Pos) : Prop :=
  (s.psc.stepState = .readBefore ∧ ∃ q ∈ s.psc.running, q ≠ p ∧ Awaits s q) ∨ s.psc.stepState = .readAfter

theorem FailsWithin.active {s : State} {p : Pos} (h : FailsWithin s p) :
    s.readingPhase = true ∧ s.stepActive = true := by
  rcases h with ⟨state, -⟩ | state <;> rw [State.readingPhase, State.stepActive, state] <;> exact ⟨rfl, rfl⟩

/-- The other positions await their readings as before, so that READ_BEFORE goes on. -/
theorem failedRead_awaited {s : State} {p : Pos} (h : FailsWithin s p) (a : StepRef) (v : Verdict) (c : RegContext)
    (state : (failedRead p a v c s).psc.stepState = .readBefore) :
    ∃ q ∈ (failedRead p a v c s).psc.running, Awaits (failedRead p a v c s) q := by
  rcases h with ⟨-, q, running, other, d, hd, waits⟩ | after
  · refine ⟨q, List.mem_filter.2 ⟨running, decide_eq_true other⟩, d, ?_, waits⟩
    rw [← hd]
    exact State.setReg_reg_ne s other _
  · cases state.symm.trans after

/-- A read whose template is empty ends at once with its position's verdict; the step goes on, or completes and starts
the queued one (R46, R47, R108, R111, R136). -/
theorem transactionStart_read_empty {s : State} {p : Pos} {digits : Nat} {a : StepRef} {c : RegContext}
    (others : OthersServed s p) (idle : (s.chan p).state = .idle)
    (waits : (s.chan p).internal = some (.registerRead digits)) (body : s.pch.registerRead.body = [])
    (relay : ∀ q, (s.chan p).relay = .waiting q → q.sendable = false) (active : s.psc.active = some a)
    (running : p ∈ s.psc.running) (hc : s.reg p = some c) (phase : FailsWithin s p) :
    ∃ u, exec (.transactionStart p) s = .next (nextStep u) ∧ Judged s u p a.slot (failedEntry a.run .badReading c) ∧
      LeavesStep (slotEmptied p s) u p := by
  refine ⟨stepLeft (failedRead p a .badReading c (slotEmptied p s)), ?_,
    stepLeft_judged (verdictTaken_judged p a.slot _ _), verdictTaken_leavesStep ..⟩
  have within : FailsWithin (slotEmptied p s) p := phase
  have goesOn := rounds_afterVerdict (s := failedRead p a .badReading c (slotEmptied p s)) within.active.2
    (failedRead_awaited within a _ c) (slotEmptied_idleEmpty others) body (slotEmptied_nothingWaits relay).2
  have ends := endEmpty_badReading digits hc phase.active.1 running active
  rw [transactionStart_empty others idle waits body, ends, goesOn, nextStep]

/-! ### The claim -/

/-- Settles O36: TRANSACTION_START by what waits at the channel, and the phases by the channel's state. -/
theorem channelStartsAndAdvances : Obligations.ChannelStartsAndAdvances := by
  unfold Obligations.ChannelStartsAndAdvances
  refine ⟨fun p s others => ⟨transactionStart_nothing others, fun idle => ⟨?_, ?_, ?_, ?_, ?_⟩⟩, fun p s => ?_,
    sum_left_eq_frameMicros⟩
  · exact fun r => transactionStart_relay others idle
  · exact fun waits body => ⟨transactionStart_identify others idle waits body,
      fun a r c => transactionStart_identify_owed others idle waits body⟩
  · exact fun digits c => transactionStart_read others idle
  · exact fun waits body owed loaded => transactionStart_identify_empty others idle waits body owed loaded
  · intro digits a r c waits body relay runs running hc phase
    exact transactionStart_read_empty others idle waits body relay runs.1 running hc phase
  · exact ⟨fun t => sendingEnd_awaits, fun t => sendingEnd_wire, fun t waited => firstStartBit_receives,
      sendingEnd_of_not_sending, fun h => ⟨firstStartBit_of_not_awaiting h, replyTimeout_of_not_awaiting h⟩,
      replyEnd_of_not_receiving⟩

end Sys2Proof.Proofs.Channels
end

section
/-! PROOFS. The fields of a payload: where each of the parts a payload is joined from lies, the parts of equal size that
an answer carries for the masked positions, and the positions a mask names (11.7). -/

namespace Sys2Proof.Proofs.Payloads

open Sys2Proof.Machine Sys2Proof.Safety

/-! ### Fields -/

@[simp] theorem length_beBytes (n x : Nat) : (beBytes n x).length = n := by
  induction n with
  | zero => rfl
  | succ n ih => simp [beBytes, ih]

@[simp] theorem length_intBytes (n : Nat) (i : Int) : (intBytes n i).length = n := length_beBytes ..

@[simp] theorem length_stepRefBytes (r : Option StepRef) : (stepRefBytes r).length = 5 := by
  cases r <;> simp [stepRefBytes]

/-- A part of a joined payload lies behind the parts before it, in its own size. -/
theorem field_flatten {parts : List (List Byte)} {sizes : List Nat} (lengths : parts.map List.length = sizes)
    {i n : Nat} {x : List Byte} (part : parts[i]? = some x) (size : sizes[i]? = some n) :
    field parts.flatten (sizes.take i).sum n = x := by
  subst lengths
  obtain ⟨h, rfl⟩ := List.getElem?_eq_some_iff.1 part
  have own : parts[i].length = n := by simpa [h] using size
  rw [field, List.drop_sum_flatten, List.drop_eq_getElem_cons h, List.flatten_cons, List.take_left' own]

/-- Two fields that meet are one field. -/
theorem field_add (l : List Byte) (o m n : Nat) : field l o (m + n) = field l o m ++ field l (o + m) n := by
  rw [field, List.take_add, List.drop_drop, field, field]

/-- A field within a field. -/
theorem field_field (l : List Byte) {o n o' n' : Nat} (within : o' + n' ≤ n) :
    field (field l o n) o' n' = field l (o + o') n' := by
  rw [field, field, field, List.drop_take, List.take_take, List.drop_drop, Nat.min_eq_left (by omega)]

/-! ### Parts of one size for each position -/

theorem length_flatMap_of_size {f : Pos → List Byte} {n : Nat} (size : ∀ p, (f p).length = n) (l : List Pos) :
    (l.flatMap f).length = n * l.length := by
  simp [List.length_flatMap, size, Nat.mul_comm]

/-- The part of the position at a place of the list lies at that multiple of the size. -/
theorem field_flatMap {f : Pos → List Byte} {n : Nat} (size : ∀ p, (f p).length = n) {l : List Pos} {i : Nat}
    {p : Pos} (place : l[i]? = some p) : field (l.flatMap f) (n * i) n = f p := by
  have within : i < l.length := (List.getElem?_eq_some_iff.1 place).1
  have lengths : (l.map f).map List.length = List.replicate l.length n := by
    simp [Function.comp_def, size, List.map_const']
  have found := field_flatten lengths (i := i) (x := f p) (by simp [place]) (List.getElem?_replicate_of_lt within)
  rwa [List.take_replicate, List.sum_replicate, Nat.min_eq_left within.le, smul_eq_mul, mul_comm,
    ← List.flatMap_def] at found

/-! ### The positions of a mask -/

theorem mem_maskPositions {mask : Word16} {p : Pos} : p ∈ maskPositions mask ↔ mask.getLsbD p.val = true := by
  simp [maskPositions]

theorem nodup_maskPositions (mask : Word16) : (maskPositions mask).Nodup :=
  List.Nodup.filter _ (by decide)

/-- A mask that fits and names no position is zero. -/
theorem mask_eq_zero {mask : Word16} (fits : mask.toNat < 4096) (nobody : maskPositions mask = []) : mask = 0 := by
  refine BitVec.eq_of_getLsbD_eq fun i _ => ?_
  show mask.getLsbD i = (0#16).getLsbD i
  rw [BitVec.getLsbD_zero]
  by_cases position : i < 12
  · exact Bool.eq_false_iff.2 fun named => List.ne_nil_of_mem (mem_maskPositions (p := ⟨i, position⟩).2 named) nobody
  · exact Nat.testBit_lt_two_pow (fits.trans_le (show 2 ^ 12 ≤ 2 ^ i from Nat.pow_le_pow_right two_pos (by omega)))

/-- The model's judgement of a mask is that of 11.7. -/
theorem maskRefused_iff {mask : Word16} :
    (!maskFits mask || (maskPositions mask).isEmpty) = true ↔ ¬ MaskLegal mask := by
  have named : 1 ≤ mask.toNat ↔ mask ≠ 0 := by
    rw [Nat.one_le_iff_ne_zero]
    exact not_congr (BitVec.toNat_eq (y := 0)).symm
  rw [MaskLegal, named, maskFits, Bool.or_eq_true, Bool.not_eq_true', decide_eq_false_iff_not, List.isEmpty_iff]
  constructor
  · rintro (wide | nobody) ⟨nonzero, fits⟩
    · omega
    · exact nonzero (mask_eq_zero (by omega) nobody)
  · intro illegal
    by_contra! legal
    refine illegal ⟨?_, by omega⟩
    rintro rfl
    exact legal.2 (by decide)

/-! ### An act on the records of the masked positions -/

/-- Each record of a list of positions replaced by what an act makes of it. -/
def eachRecord (l : List Pos) (f : PositionRecord → PositionRecord) (s : State) : State :=
  forEach l (fun p t => t.setPos p (f (t.pos p))) s

@[simp] theorem eachRecord_cons (p : Pos) (l : List Pos) (f : PositionRecord → PositionRecord) (s : State) :
    eachRecord (p :: l) f s = eachRecord l f (s.setPos p (f (s.pos p))) := rfl

theorem eachRecord_records_only (l : List Pos) (f : PositionRecord → PositionRecord) (s : State) :
    eachRecord l f s = { s with pt := { s.pt with positions := (eachRecord l f s).pt.positions } } := by
  induction l generalizing s with
  | nil => rfl
  | cons p l ih => exact ih (s.setPos p (f (s.pos p)))

theorem eachRecord_pos_of_not_mem {l : List Pos} {q : Pos} (h : q ∉ l) (f : PositionRecord → PositionRecord)
    (s : State) : (eachRecord l f s).pos q = s.pos q := by
  induction l generalizing s with
  | nil => rfl
  | cons p l ih =>
    obtain ⟨other, rest⟩ := not_or.1 (List.mem_cons.not.1 h)
    rw [eachRecord_cons, ih rest, State.setPos_pos_ne s other]

theorem eachRecord_pos_of_mem {l : List Pos} {q : Pos} (once : l.Nodup) (h : q ∈ l)
    (f : PositionRecord → PositionRecord) (s : State) : (eachRecord l f s).pos q = f (s.pos q) := by
  induction l generalizing s with
  | nil => cases h
  | cons p l ih =>
    obtain ⟨fresh, once⟩ := List.nodup_cons.1 once
    rw [eachRecord_cons]
    by_cases own : q = p
    · subst own
      rw [eachRecord_pos_of_not_mem fresh, State.setPos_pos_self]
    · rw [ih once ((List.mem_cons.1 h).resolve_left own), State.setPos_pos_ne s own]

end Sys2Proof.Proofs.Payloads
end

section
/-! PROOFS. STATUS_READ, SETTINGS_READ and SETTINGS_WRITE (R125, R188), and a kind that is no command (R184). -/

namespace Sys2Proof.Proofs.Settings

open Sys2Proof.Machine Sys2Proof.Safety Sys2Proof.Proofs.Payloads

/-! ### STATUS_READ -/

/-- The fields of the STATUS_READ payload in their order (11.7). -/
def statusFields (s : State) : List (List Byte) :=
  [[byteOf s.strap.toNat, s.psc.stepState.code], stepRefBytes s.psc.active, stepRefBytes s.psc.queued,
    stepRefBytes s.psc.last,
    [stepEventCode s.psc.lastEvent, byteOf s.psc.running.length, byteOf s.bli.answers.length, byteOf s.bli.owed,
      byteOf s.bli.held.length, byteOf s.bli.reports.length],
    beBytes 2 s.bli.upErrors, beBytes 2 s.bli.downErrors, beBytes 2 s.bli.forwardDrops, beBytes 2 s.bli.commandDrops,
    beBytes 2 s.bli.sealDrops, [boolByte s.scanning], beBytes 2 (freeCountField s), beBytes 5 (nextSealField s),
    settingsBytes s]

theorem statusBytes_eq_flatten (s : State) : statusBytes s = (statusFields s).flatten := by
  simp [statusBytes, statusFields]

theorem statusFields_sizes (s : State) :
    (statusFields s).map List.length = [2, 5, 5, 5, 6, 2, 2, 2, 2, 2, 1, 2, 5, 2] := by
  simp [statusFields, settingsBytes]

theorem field_statusBytes (s : State) {i n : Nat} {x : List Byte} (part : (statusFields s)[i]? = some x)
    (size : [2, 5, 5, 5, 6, 2, 2, 2, 2, 2, 1, 2, 5, 2][i]? = some n) :
    field (statusBytes s) ([2, 5, 5, 5, 6, 2, 2, 2, 2, 2, 1, 2, 5, 2].take i).sum n = x := by
  rw [statusBytes_eq_flatten]
  exact field_flatten (statusFields_sizes s) part size

theorem length_statusBytes (s : State) : (statusBytes s).length = 43 := by
  rw [statusBytes_eq_flatten, List.length_flatten, statusFields_sizes]
  rfl

theorem scanning_of_over {s : State} (h : s.srs.phase = .over) : s.scanning = false :=
  decide_eq_false (not_not_intro h)

theorem scanning_of_not_over {s : State} (h : s.srs.phase ≠ .over) : s.scanning = true := decide_eq_true h

/-- The scan byte and the store's figures lie together (11.7). -/
theorem storeFields (s : State) : field (statusBytes s) 33 1 = [boolByte s.scanning] ∧
    field (statusBytes s) 34 2 = beBytes 2 (freeCountField s) ∧
    field (statusBytes s) 36 5 = beBytes 5 (nextSealField s) :=
  ⟨field_statusBytes s (i := 10) rfl rfl, field_statusBytes s (i := 11) rfl rfl, field_statusBytes s (i := 12) rfl rfl⟩

/-- After the scan the store's figures are carried (R178). -/
theorem storeFields_of_over {s : State} (h : s.srs.phase = .over) :
    field (statusBytes s) 33 1 = [0] ∧ field (statusBytes s) 34 2 = beBytes 2 s.srs.freeCount ∧
      field (statusBytes s) 36 5 = beBytes 5 s.srs.nextSeal := by
  simp [storeFields s, freeCountField, nextSealField, scanning_of_over h, boolByte]

/-- During the scan the store's figures are absent, and carried as zeros (R178). -/
theorem storeFields_of_not_over {s : State} (h : s.srs.phase ≠ .over) :
    field (statusBytes s) 33 8 = [1, 0, 0, 0, 0, 0, 0, 0] := by
  obtain ⟨scan, free, next⟩ := storeFields s
  rw [field_add _ 33 1 7, field_add _ 34 2 5, scan, free, next, freeCountField, nextSealField, scanning_of_not_over h,
    if_pos rfl, if_pos rfl]
  decide

theorem statusRead_answered (tag : Byte) {s : State} (ready : Ready s) :
    exec (.statusRead tag) s = .next (answered tag (0x00 :: statusBytes s) s) :=
  congrArg Host.Outcome.next (takeCommand_ready ready)

/-! ### The settings -/

theorem settingsRead_answered (tag : Byte) {s : State} (ready : Ready s) :
    exec (.settingsRead tag) s = .next (answered tag [0x00, byteOf s.pt.trimLimit, boolByte s.pt.gateReports] s) :=
  congrArg Host.Outcome.next (takeCommand_ready ready)

theorem exec_settingsWrite (tag limit reports : Byte) {s : State} (ready : Ready s) :
    exec (.settingsWrite tag limit reports) s =
      .next (answered tag
        ((settingsWriteActs limit reports s).2.status.code :: (settingsWriteActs limit reports s).2.bytes)
        (settingsWriteActs limit reports s).1) :=
  congrArg Host.Outcome.next (takeCommand_ready ready)

@[simp] theorem boolOf_boolByte (b : Bool) : boolOf (boolByte b) = some b := by cases b <;> rfl

theorem boolOf_of_gt {b : Byte} (h : 1 < b.toNat) : boolOf b = none := by
  unfold boolOf
  split
  · omega
  · omega
  · rfl

theorem inRange_iff {lo hi n : Nat} : inRange lo hi n = true ↔ lo ≤ n ∧ n ≤ hi := by
  simp only [inRange, Bool.and_eq_true, decide_eq_true_eq]

theorem settingsWriteActs_legal {limit : Byte} (reports : Bool) (s : State) (low : 1 ≤ limit.toNat)
    (high : limit.toNat ≤ 7) :
    settingsWriteActs limit (boolByte reports) s =
      accept [limit, boolByte reports] (setSettings limit.toNat reports s) := by
  have bytes : settingsBytes (setSettings limit.toNat reports s) = [limit, boolByte reports] := by
    simp [settingsBytes, setSettings, byteOf]
  simp only [settingsWriteActs, boolOf_boolByte, inRange_iff.2 ⟨low, high⟩, if_true, bytes]

theorem settingsWriteActs_illegal {limit reports : Byte} (s : State)
    (h : limit.toNat = 0 ∨ 7 < limit.toNat ∨ 1 < reports.toNat) :
    settingsWriteActs limit reports s = refuse .badArg s := by
  unfold settingsWriteActs
  split
  · rfl
  · rename_i b known
    refine if_neg fun inside => ?_
    obtain ⟨low, high⟩ := inRange_iff.1 inside
    rcases h with zero | above | unknown
    · omega
    · omega
    · exact absurd known (by simp [boolOf_of_gt unknown])

/-! ### The claim -/

/-- Settles O8: the fields of the status payload by their places, and the settings by what SETTINGS_WRITE judges. -/
theorem statusAndSettingsCommands : Obligations.StatusAndSettingsCommands := by
  unfold Obligations.StatusAndSettingsCommands
  refine ⟨fun tag s ready => ⟨?status, settingsRead_answered tag ready, ?taken, ?refused⟩, ?unknown⟩
  case status =>
    exact ⟨statusBytes s, statusRead_answered tag ready, length_statusBytes s,
      field_statusBytes s (i := 0) rfl rfl, field_statusBytes s (i := 1) rfl rfl, field_statusBytes s (i := 2) rfl rfl,
      field_statusBytes s (i := 3) rfl rfl, field_statusBytes s (i := 4) rfl rfl, field_statusBytes s (i := 5) rfl rfl,
      field_statusBytes s (i := 6) rfl rfl, field_statusBytes s (i := 7) rfl rfl, field_statusBytes s (i := 8) rfl rfl,
      field_statusBytes s (i := 9) rfl rfl, storeFields_of_over, storeFields_of_not_over,
      field_statusBytes s (i := 13) rfl rfl⟩
  case taken =>
    intro limit reports low high
    rw [exec_settingsWrite tag limit _ ready, settingsWriteActs_legal reports s low high]
    rfl
  case refused =>
    intro limit reports illegal
    rw [exec_settingsWrite tag limit _ ready, settingsWriteActs_illegal s illegal]
    rfl
  case unknown => exact fun tag s ready => congrArg Host.Outcome.next (takeCommand_ready ready)

end Sys2Proof.Proofs.Settings
end

section
/-! PROOFS. CORRECTION_COMPUTE: what R117 judges, the targets of a position and their ends (R119 to R123), and the
answer and the records of the masked positions. -/

namespace Sys2Proof.Proofs.Corrections

open Sys2Proof.Machine Sys2Proof.Safety Sys2Proof.Proofs.Gates Sys2Proof.Proofs.Figures Sys2Proof.Proofs.Payloads

/-! ### The steps a command names (R117) -/

theorem stepSlotOf_eq_some_iff {b : Byte} {n : Fin 32} : stepSlotOf b = some n ↔ b = BitVec.ofNat 8 n.val := by
  have small : n.val % 256 = n.val := Nat.mod_eq_of_lt (by omega)
  rw [BitVec.toNat_eq, BitVec.toNat_ofNat, small]
  constructor
  · intro h
    obtain ⟨_, found⟩ := Option.dite_none_right_eq_some.1 h
    exact congrArg Fin.val (Option.some.inj found)
  · exact fun h => (dif_pos (h ▸ n.isLt)).trans (congrArg some (Fin.ext h))

theorem stepKind_eq_error_iff {r : StepRecord} : stepKind r = some .error ↔ r.kind = 0 := by
  rw [BitVec.toNat_eq]
  unfold stepKind
  split <;> simp_all

theorem errorStepAt_eq_some_iff {s : State} {n : Fin 32} {r : StepRecord} :
    errorStepAt s n = some r ↔ s.psc.plan[n.val] = some r ∧ r.kind = 0 := by
  rw [errorStepAt, Option.filter_eq_some_iff, decide_eq_true_iff, stepKind_eq_error_iff]

/-- Step B as the model reads it is the step B of R117. -/
theorem stepBOf_eq_some_iff {s : State} {a : Fin 32} {b : Byte} {n : Fin 32} {t : Int} :
    stepBOf s a b = some (n, t) ↔ ∃ r, b = BitVec.ofNat 8 n.val ∧ n ≠ a ∧ s.psc.plan[n.val] = some r ∧ r.kind = 0 ∧
      100 ≤ |r.tangent.toInt| ∧ t = r.tangent.toInt := by
  have large : ∀ r : StepRecord, 100 ≤ |r.tangent.toInt| ↔ ¬ r.tangent.toInt.natAbs < 100 := fun r => by
    rw [Int.abs_eq_natAbs]; omega
  unfold stepBOf
  constructor
  · intro h
    split at h
    · cases h
    rename_i slot
    split at h
    · cases h
    rename_i r error
    obtain ⟨distinct, found⟩ := Option.ite_none_left_eq_some.1 h
    obtain ⟨other, tangent⟩ := not_or.1 distinct
    cases found
    obtain ⟨plan, kind⟩ := errorStepAt_eq_some_iff.1 error
    exact ⟨r, stepSlotOf_eq_some_iff.1 slot, other, plan, kind, (large r).2 tangent, rfl⟩
  · rintro ⟨r, slot, other, plan, kind, tangent, rfl⟩
    simp only [stepSlotOf_eq_some_iff.2 slot, errorStepAt_eq_some_iff.2 ⟨plan, kind⟩]
    exact if_neg (not_or.2 ⟨other, (large r).1 tangent⟩)

/-- The steps a command names pass the model's judgement exactly when they pass R117. -/
theorem correctionSteps_eq_some_iff {s : State} {a : Byte} {b : Option Byte} {na : Fin 32}
    {nb : Option (Fin 32 × Int)} : correctionSteps s a b = some (na, nb) ↔ StepsLegal s a b na nb := by
  unfold correctionSteps
  constructor
  · intro h
    split at h
    · cases h
    rename_i n slot
    split at h
    · cases h
    · rename_i r error
      cases h
      exact ⟨stepSlotOf_eq_some_iff.1 slot, ⟨r, errorStepAt_eq_some_iff.1 error⟩, .inl ⟨rfl, rfl⟩⟩
    · rename_i r carried error
      obtain ⟨⟨n', t⟩, stepB, found⟩ := Option.map_eq_some_iff.1 h
      cases found
      obtain ⟨rB, slotB, other, plan, kind, large, rfl⟩ := stepBOf_eq_some_iff.1 stepB
      exact ⟨stepSlotOf_eq_some_iff.1 slot, ⟨r, errorStepAt_eq_some_iff.1 error⟩,
        .inr ⟨n', rB, congrArg some slotB, other, plan, kind, large, rfl⟩⟩
  · rintro ⟨slot, ⟨r, error⟩, ⟨rfl, rfl⟩ | ⟨n, rB, rfl, other, plan, kind, large, rfl⟩⟩
    · simp only [stepSlotOf_eq_some_iff.2 slot, errorStepAt_eq_some_iff.2 error]
    · simp only [stepSlotOf_eq_some_iff.2 slot, errorStepAt_eq_some_iff.2 error,
        stepBOf_eq_some_iff.2 ⟨rB, rfl, other, plan, kind, large, rfl⟩, Option.map_some]

theorem tangent_ne_zero {s : State} {a : Byte} {b : Option Byte} {na n : Fin 32} {nb : Option (Fin 32 × Int)}
    {t : Int} (legal : StepsLegal s a b na nb) (carried : nb = some (n, t)) : t ≠ 0 := by
  obtain ⟨-, -, ⟨-, rfl⟩ | ⟨n', r, -, -, -, -, large, rfl⟩⟩ := legal
  · cases carried
  · cases carried
    rintro zero
    rw [zero] at large
    exact absurd large (by decide)

/-! ### Usable entries (R119) -/

theorem usableVerdict_iff {v : Verdict} : usableVerdict v = true ↔ v = .pass ∨ v = .fail ∨ v = .unstable := by
  cases v <;> simp [usableVerdict]

theorem entryMean_eq_some_iff {f : EntryFields} {mean : Int} :
    entryMean f = some mean ↔ ∃ k a nUsed spread, f = .error k a nUsed (some (mean, spread)) := by
  cases f <;> simp [entryMean]

/-- The model's usable mean is that of a usable entry. -/
theorem usableMean_eq_some_iff {r : PositionRecord} {n : Fin 32} {mean : Int} :
    usableMean r.results[n.val] = some mean ↔ Usable r n mean := by
  unfold usableMean
  constructor
  · intro h
    split at h
    · cases h
    rename_i e present
    obtain ⟨verdict, mean⟩ := Option.ite_none_right_eq_some.1 h
    obtain ⟨k, a, nUsed, spread, fields⟩ := entryMean_eq_some_iff.1 mean
    exact ⟨e, k, a, nUsed, spread, present, fields, usableVerdict_iff.1 verdict⟩
  · rintro ⟨e, k, a, nUsed, spread, present, fields, verdict⟩
    simp only [present, usableVerdict_iff.2 verdict, if_true]
    exact entryMean_eq_some_iff.2 ⟨k, a, nUsed, spread, fields⟩

theorem usableMean_eq_none_iff {r : PositionRecord} {n : Fin 32} :
    usableMean r.results[n.val] = none ↔ ¬ ∃ mean, Usable r n mean := by
  rw [← not_iff_not, not_not, ← ne_eq, Option.ne_none_iff_exists']
  exact exists_congr fun _ => usableMean_eq_some_iff

/-! ### The targets (R120, R121) -/

/-- The rounded quotient of a divisor of either sign is the nearest integer (R82, R121). -/
theorem roundDiv_nearest (a : Int) {b : Int} (hb : b ≠ 0) : NearestQuotient a b (roundDiv a b) := by
  have magnitude : 0 < b.natAbs := Int.natAbs_pos.2 hb
  unfold roundDiv
  split
  · have same : (b.natAbs : Int) = b := Int.natAbs_of_nonneg ‹_›
    exact same ▸ roundDivPos_nearest a magnitude
  · have product : ∀ k, b * k = -(b.natAbs * k) := fun k => by
      rw [← neg_mul, show -(b.natAbs : Int) = b by omega]
    have nearest := roundDivPos_nearest (-a) magnitude
    have flip : ∀ k : Int, |a - b * k| = |-a - b.natAbs * k| := fun k => by
      rw [← abs_neg, product]; congr 1; ring
    intro k
    rw [flip, flip]
    exact nearest k

theorem correctionTargets_of_unusable {r : PositionRecord} {na : Fin 32} (h : ¬ ∃ eA, Usable r na eA)
    (m : MeterConstants) (nb : Option (Fin 32 × Int)) : correctionTargets r m (na, nb) = .inl na := by
  simp only [correctionTargets, usableMean_eq_none_iff.2 h]

theorem correctionTargets_gain {r : PositionRecord} {na : Fin 32} {eA : Int} (h : Usable r na eA) (m : MeterConstants) :
    correctionTargets r m (na, none) = .inr (gainTarget r.gain eA m.gainUnit, none) := by
  simp only [correctionTargets, usableMean_eq_some_iff.2 h]

theorem correctionTargets_of_unusable_b {r : PositionRecord} {na n : Fin 32} {eA : Int} (h : Usable r na eA)
    (k : ¬ ∃ eB, Usable r n eB) (m : MeterConstants) (t : Int) :
    correctionTargets r m (na, some (n, t)) = .inl n := by
  simp only [correctionTargets, phaseTargetOf, usableMean_eq_some_iff.2 h, usableMean_eq_none_iff.2 k, Option.map_none]

theorem correctionTargets_both {r : PositionRecord} {na n : Fin 32} {eA eB : Int} (h : Usable r na eA)
    (k : Usable r n eB) (m : MeterConstants) (t : Int) :
    correctionTargets r m (na, some (n, t)) =
      .inr (gainTarget r.gain eA m.gainUnit, some (phaseTarget r.phase eA eB t m.phaseUnit)) := by
  simp only [correctionTargets, phaseTargetOf, usableMean_eq_some_iff.2 h, usableMean_eq_some_iff.2 k, Option.map_some]

/-! ### The ranges of the words (R122) -/

theorem inWidth_iff {width : Nat} {w : Int} : inWidth width w = true ↔ WordFits width w := inRangeInt_iff

theorem targetsFit_iff {m : MeterConstants} {gain : Int} {phase : Option Int} :
    targetsFit m (gain, phase) = true ↔ TargetsFit m gain phase := by
  cases phase <;> simp [targetsFit, TargetsFit, inWidth_iff]

theorem lowestWord_le_highestWord (width : Nat) : lowestWord width ≤ highestWord width := by
  have : (0 : Int) < 2 ^ (width - 1) := by positivity
  unfold lowestWord highestWord
  omega

theorem clampWord_fst (width : Nat) (w : Int) : (clampWord width w).1 = heldWord width w := by
  have ordered := lowestWord_le_highestWord width
  show _ = max (lowestWord width) (min (highestWord width) w)
  unfold clampWord
  split_ifs <;> simp only <;> omega

theorem clampWord_snd_iff {width : Nat} {w : Int} : (clampWord width w).2 = true ↔ ¬ WordFits width w := by
  have ordered := lowestWord_le_highestWord width
  show _ ↔ ¬ (lowestWord width ≤ w ∧ w ≤ highestWord width)
  unfold clampWord
  split_ifs <;> simp only [true_iff, false_iff] <;> omega

/-! ### The end of a position (R122, R123) -/

/-- Three flags in one byte, read back. -/
theorem flagByte_three (a b c : Bool) : (flagByte [a, b, c]).toNat < 8 ∧ (flagByte [a, b, c]).getLsbD 0 = a ∧
    (flagByte [a, b, c]).getLsbD 1 = b ∧ (flagByte [a, b, c]).getLsbD 2 = c := by
  revert a b c; decide

theorem noCorrection_of_inl (m : MeterConstants) (n : Fin 32) (r : PositionRecord) :
    NoCorrection n r (correctedRecord m (.inl n) r) (targetsAnswer m (.inl n)) := ⟨rfl, rfl⟩

theorem targetBytes_eq (m : MeterConstants) (gain : Int) (phase : Option Int) :
    targetBytes m (gain, phase) =
      intBytes 4 (heldWord m.gainWidth gain) ++ intBytes 4 ((phase.map (heldWord m.phaseWidth)).getD 0) := by
  simp only [targetBytes, clampWord_fst]

/-- Formed targets end READY or OUT_OF_TRIM. -/
theorem targetsEnd_of_inr (m : MeterConstants) (gain : Int) (phase : Option Int) (r : PositionRecord) :
    TargetsEnd m gain phase r (correctedRecord m (.inr (gain, phase)) r) (targetsAnswer m (.inr (gain, phase))) := by
  obtain ⟨small, present, gainClamped, phaseClamped⟩ := flagByte_three phase.isSome (clampWord m.gainWidth gain).2
    (phase.any fun w => (clampWord m.phaseWidth w).2)
  refine ⟨fun fit => if_pos (targetsFit_iff.2 fit), fun misfit => if_neg (misfit ∘ targetsFit_iff.1),
    if targetsFit m (gain, phase) then 0 else 1, targetFlags m (gain, phase), ?_, ?_, small, ?_, ?_, ?_, ?_⟩
  · rw [← targetsFit_iff]; split <;> simp_all
  · split <;> decide
  · exact iff_of_eq (congrArg (· = true) present)
  · exact (iff_of_eq (congrArg (· = true) gainClamped)).trans clampWord_snd_iff
  · rw [targetFlags, phaseClamped]
    simp [Option.any_eq_true, clampWord_snd_iff]
  · rw [targetsAnswer, targetBytes_eq]; simp

/-- The model's computation for a position is that of R119 to R123. -/
theorem correctionTargets_corrected {m : MeterConstants} {na : Fin 32} {nb : Option (Fin 32 × Int)}
    (gainUnit : 1 ≤ m.gainUnit) (phaseUnit : 1 ≤ m.phaseUnit) (tangent : ∀ n t, nb = some (n, t) → t ≠ 0)
    (r : PositionRecord) :
    Corrected m na nb r (correctedRecord m (correctionTargets r m (na, nb)) r)
      (targetsAnswer m (correctionTargets r m (na, nb))) := by
  refine ⟨fun unusable => ?_, fun eA usableA => ⟨roundDivPos (-eA * 100) m.gainUnit, roundDivPos_nearest _ gainUnit,
    ?_, ?_⟩⟩
  · rw [correctionTargets_of_unusable unusable]
    exact noCorrection_of_inl m na r
  · rintro rfl
    rw [correctionTargets_gain usableA]
    exact targetsEnd_of_inr ..
  · rintro n t rfl
    refine ⟨fun unusable => ?_, fun eB usableB => ⟨roundDiv (-(eB - eA) * 100000) (t * m.phaseUnit),
      roundDiv_nearest _ (mul_ne_zero (tangent n t rfl) (by omega)), ?_⟩⟩
    · rw [correctionTargets_of_unusable_b usableA unusable]
      exact noCorrection_of_inl m n r
    · rw [correctionTargets_both usableA usableB]
      exact targetsEnd_of_inr ..

/-! ### The answer and the record of a position -/

theorem takesPart_iff {r : PositionRecord} : takesPart r = true ↔ TakesPart r := by
  simp [takesPart, TakesPart]

/-- The outcome bytes of a position, behind its number (R123). -/
def outcomeBytes (c : CorrectionSteps) (r : PositionRecord) : List Byte :=
  match r.meter with
  | none => skippedCorrection r
  | some m => if takesPart r then targetsAnswer m (correctionTargets r m c) else skippedCorrection r

theorem correctionAnswer_eq (c : CorrectionSteps) (s : State) (p : Pos) :
    correctionAnswer c s p = [posByte p] ++ outcomeBytes c (s.pos p) := rfl

theorem outcomeBytes_skipped {r : PositionRecord} (h : ¬ TakesPart r) (c : CorrectionSteps) :
    outcomeBytes c r = skippedCorrection r := by
  unfold outcomeBytes
  split
  · rfl
  · exact if_neg (h ∘ takesPart_iff.1)

theorem computeCorrection_skipped {r : PositionRecord} (h : ¬ TakesPart r) (c : CorrectionSteps) :
    computeCorrection c r = r := by
  unfold computeCorrection
  split
  · rfl
  · exact if_neg (h ∘ takesPart_iff.1)

theorem outcomeBytes_takesPart {r : PositionRecord} {m : MeterConstants} (h : TakesPart r) (meter : r.meter = some m)
    (c : CorrectionSteps) : outcomeBytes c r = targetsAnswer m (correctionTargets r m c) := by
  simp only [outcomeBytes, meter, takesPart_iff.2 h, if_true]

theorem computeCorrection_takesPart {r : PositionRecord} {m : MeterConstants} (h : TakesPart r)
    (meter : r.meter = some m) (c : CorrectionSteps) :
    computeCorrection c r = correctedRecord m (correctionTargets r m c) r := by
  simp only [computeCorrection, meter, takesPart_iff.2 h, if_true]

theorem length_targetsAnswer (m : MeterConstants) (t : Fin 32 ⊕ (Int × Option Int)) :
    (targetsAnswer m t).length = 12 := by
  cases t with
  | inl n => rfl
  | inr t => simp [targetsAnswer, targetBytes]

theorem length_outcomeBytes (c : CorrectionSteps) (r : PositionRecord) : (outcomeBytes c r).length = 12 := by
  unfold outcomeBytes
  split
  · rfl
  · split
    · exact length_targetsAnswer ..
    · rfl

theorem length_correctionAnswer (c : CorrectionSteps) (s : State) (p : Pos) : (correctionAnswer c s p).length = 13 := by
  rw [correctionAnswer_eq, List.length_append, length_outcomeBytes, List.length_singleton]

/-- The number and the outcome of the position at a place of the mask. -/
theorem fields_correctionAnswers (c : CorrectionSteps) (s : State) {l : List Pos} {i : Nat} {p : Pos}
    (place : l[i]? = some p) :
    field (l.flatMap (correctionAnswer c s)) (13 * i) 1 = [posByte p] ∧
      field (l.flatMap (correctionAnswer c s)) (13 * i + 1) 12 = outcomeBytes c (s.pos p) := by
  have own := field_flatMap (length_correctionAnswer c s) place
  have whole := length_outcomeBytes c (s.pos p)
  constructor
  · rw [← Nat.add_zero (13 * i), ← field_field _ (n := 13) (by omega), own, correctionAnswer_eq]
    rfl
  · rw [← field_field _ (n := 13) (by omega), own, correctionAnswer_eq]
    exact List.take_of_length_le whole.le

/-! ### The command -/

/-- A command that R117 refuses is refused as a whole. -/
theorem correctionComputeActs_refused {s : State} {mask : Word16} {a : Byte} {b : Option Byte}
    (h : ¬ MaskLegal mask ∨ ¬ ∃ na nb, StepsLegal s a b na nb) :
    correctionComputeActs mask a b s = refuse .badArg s := by
  unfold correctionComputeActs
  split
  · rfl
  · rename_i legal
    split
    · rfl
    · rename_i c steps
      exact absurd ⟨c.1, c.2, correctionSteps_eq_some_iff.1 steps⟩
        (h.resolve_left fun illegal => legal (maskRefused_iff.2 illegal))

theorem correctionComputeActs_taken {s : State} {mask : Word16} {a : Byte} {b : Option Byte} {na : Fin 32}
    {nb : Option (Fin 32 × Int)} (mask_legal : MaskLegal mask) (steps : StepsLegal s a b na nb) :
    correctionComputeActs mask a b s =
      accept (byteOf (maskPositions mask).length :: (maskPositions mask).flatMap (correctionAnswer (na, nb) s))
        (eachRecord (maskPositions mask) (computeCorrection (na, nb)) s) := by
  rw [correctionComputeActs, if_neg fun refused => maskRefused_iff.1 refused mask_legal,
    correctionSteps_eq_some_iff.2 steps]
  rfl

theorem exec_correctionCompute (tag : Byte) (mask : Word16) (a : Byte) (b : Option Byte) {s : State} (ready : Ready s) :
    exec (.correctionCompute tag mask a b) s =
      .next (answered tag
        ((correctionComputeActs mask a b s).2.status.code :: (correctionComputeActs mask a b s).2.bytes)
        (correctionComputeActs mask a b s).1) :=
  congrArg Host.Outcome.next (takeCommand_ready ready)

/-! ### The claim -/

/-- Settles O34: the command by what R117 judges, and each masked position by its own part of the answer. -/
theorem correctionComputeFormsWords : Obligations.CorrectionComputeFormsWords := by
  unfold Obligations.CorrectionComputeFormsWords
  refine fun tag mask a b s ready => ⟨fun refused => ?_, fun na nb legal steps => ?_⟩
  · rw [exec_correctionCompute tag mask a b ready, correctionComputeActs_refused refused]
    rfl
  refine ⟨eachRecord (maskPositions mask) (computeCorrection (na, nb)) s,
    (maskPositions mask).flatMap (correctionAnswer (na, nb) s), ?_, eachRecord_records_only ..,
    length_flatMap_of_size (length_correctionAnswer _ _) _, fun p unmasked => ?_, fun i p place => ?_⟩
  · rw [exec_correctionCompute tag mask a b ready, correctionComputeActs_taken legal steps]
    rfl
  · refine eachRecord_pos_of_not_mem (fun masked => ?_) ..
    exact Bool.false_ne_true (unmasked.symm.trans (mem_maskPositions.1 masked))
  have record := eachRecord_pos_of_mem (nodup_maskPositions mask) (List.mem_of_getElem? place)
    (computeCorrection (na, nb)) s
  obtain ⟨number, outcome⟩ := fields_correctionAnswers (na, nb) s place
  rw [record, outcome]
  refine ⟨number, fun skipped => ?_, fun m meter gainUnit phaseUnit part => ?_⟩
  · exact ⟨computeCorrection_skipped skipped _, outcomeBytes_skipped skipped _⟩
  · rw [computeCorrection_takesPart part meter, outcomeBytes_takesPart part meter]
    exact correctionTargets_corrected gainUnit phaseUnit (fun _ _ => tangent_ne_zero steps) _

end Sys2Proof.Proofs.Corrections
end
section
/-! PROOFS. The channel arbiter keeps up (R142): the acts after which every channel has started what it could, but for a
request whose template is empty, and the rounds of `quiesce` that end every one of those (R136). -/

namespace Sys2Proof.Proofs.Serving

open Sys2Proof.Machine Sys2Proof.Safety Sys2Proof.Proofs.Channels

/-! ### A channel that has started what it could -/

/-- If the channel of a position is IDLE, the request it goes on to sends nothing: a template request with an empty
template, or else no sendable relay request (R136, R142). -/
def Started (s : State) (p : Pos) : Prop :=
  (s.chan p).state = .idle →
    (∀ q, (s.chan p).internal = some q → (s.pch.templateOf q).body = []) ∧
      ((s.chan p).internal = none → ∀ r, (s.chan p).relay = .waiting r → r.sendable = false)

/-- An act that leaves no channel with a request it could start, if none had one. -/
structure Starts (s t : State) : Prop where
  started : ∀ q, Started s q → Started t q

/-- The same, but for the channel of one position. -/
structure StartsBeside (p : Pos) (s t : State) : Prop where
  started : ∀ q, q ≠ p → Started s q → Started t q

theorem Started.of_served {s : State} (h : Served s) (p : Pos) : Started s p := by
  intro idle
  obtain ⟨empty, relay⟩ := h p idle
  exact ⟨fun q waits => (nomatch empty.symm.trans waits), fun _ => relay⟩

theorem Started.of_busy {s : State} {p : Pos} (h : (s.chan p).state ≠ .idle) : Started s p := fun idle => absurd idle h

/-- With no template request at an IDLE channel, a started channel is a served one. -/
theorem served_of_started {s : State} (h : ∀ p, Started s p) (idle : IdleEmpty s) : Served s :=
  fun p k => ⟨idle p k, (h p k).2 (idle p k)⟩

theorem Starts.refl (s : State) : Starts s s := ⟨fun _ => id⟩

theorem Starts.trans {s t u : State} (h : Starts s t) (k : Starts t u) : Starts s u :=
  ⟨fun q x => k.started q (h.started q x)⟩

theorem Starts.of_pch {s t : State} (h : t.pch = s.pch) : Starts s t := by
  refine ⟨fun q started => ?_⟩
  have chan : t.chan q = s.chan q := by rw [State.chan, h]; rfl
  rw [Started, chan, h]
  exact started

theorem Starts.of_portKey {s t : State} (h : portKey t = portKey s) : Starts s t := .of_pch (congrArg Prod.snd h)

theorem Starts.of_ite {s t u : State} {c : Prop} [Decidable c] (h : c → Starts s t) (k : ¬c → Starts s u) :
    Starts s (if c then t else u) := by
  split
  · exact h ‹_›
  · exact k ‹_›

theorem Starts.forEach {f : Pos → State → State} (h : ∀ p s, Starts s (f p s)) (l : List Pos) (s : State) :
    Starts s (forEach l f s) := by
  induction l generalizing s with
  | nil => exact .refl s
  | cons p l ih => exact (h p s).trans (ih (f p s))

theorem Starts.beside {s t : State} (h : Starts s t) (p : Pos) : StartsBeside p s t := ⟨fun q _ => h.started q⟩

theorem StartsBeside.trans {s t u : State} {p : Pos} (h : StartsBeside p s t) (k : StartsBeside p t u) :
    StartsBeside p s u := ⟨fun q hq x => k.started q hq (h.started q hq x)⟩

/-- An act that changes no template and no channel but that of one position. -/
structure PortsBeside (p : Pos) (s t : State) : Prop where
  templates : t.pch.templateOf = s.pch.templateOf
  chans     : ∀ q, q ≠ p → t.chan q = s.chan q

theorem PortsBeside.of_pch {s t : State} (h : t.pch = s.pch) (p : Pos) : PortsBeside p s t :=
  ⟨by rw [h], fun q _ => by rw [State.chan, h]; rfl⟩

theorem PortsBeside.of_local {s t : State} {p : Pos} (h : Local s t) (k : ∀ q, q ≠ p → t.chan q = s.chan q) :
    PortsBeside p s t := by
  refine ⟨funext fun x => ?_, k⟩
  cases x with
  | identify => exact h.identify
  | registerRead _ => exact h.registerRead

theorem PortsBeside.trans {s t u : State} {p : Pos} (h : PortsBeside p s t) (k : PortsBeside p t u) :
    PortsBeside p s u := ⟨k.templates.trans h.templates, fun q hq => (k.chans q hq).trans (h.chans q hq)⟩

theorem PortsBeside.starts {s t : State} {p : Pos} (h : PortsBeside p s t) : StartsBeside p s t := by
  refine ⟨fun q hq started => ?_⟩
  rw [Started, h.chans q hq, h.templates]
  exact started

theorem setChan_ports (p : Pos) (c : Channel) (s : State) : PortsBeside p s (s.setChan p c) :=
  .of_local (setChan_local ..) fun _ hq => State.setChan_chan_ne s hq c

theorem setChan_beside (p : Pos) (c : Channel) (s : State) : StartsBeside p s (s.setChan p c) :=
  (setChan_ports p c s).starts

/-! ### The start of a request -/

theorem startedRead_portKey (p : Pos) (q : TemplateRequest) (s : State) :
    portKey (startedRead p q s) = portKey s := by
  cases q with
  | identify => rfl
  | registerRead _ => exact setRead_portKey ..

/-- The placing of an owed read changes no channel but its own, and there the internal slot alone (R107). -/
theorem placeOwed_readsTaken (p : Pos) (s : State) :
    ReadsTaken s (placeOwed p s) ∧ ∀ q, q ≠ p → (placeOwed p s).chan q = s.chan q := by
  unfold placeOwed
  split
  · have key := setRead_portKey p .placed
      (s.setChan p { s.chan p with internal := some (.registerRead s.activeDigits) })
    obtain ⟨queued, ports⟩ := Prod.mk.inj key
    have chans : ∀ q, (setRead p .placed (s.setChan p { s.chan p with internal := some (.registerRead s.activeDigits) })).chan q
        = (s.setChan p { s.chan p with internal := some (.registerRead s.activeDigits) }).chan q := fun q => by
      rw [State.chan, ports]; rfl
    refine ⟨⟨queued, by rw [ports]; rfl, fun q => ?_⟩, fun q hq => ?_⟩
    · by_cases own : q = p
      · exact .inr ⟨s.activeDigits, by rw [chans, own]; exact State.setChan_chan_self ..⟩
      · exact .inl (by rw [chans]; exact State.setChan_chan_ne s own _)
    · rw [chans]; exact State.setChan_chan_ne s hq _
  · exact ⟨.of_portKey rfl, fun _ _ => rfl⟩

theorem placeOwed_beside (p : Pos) (s : State) : StartsBeside p s (placeOwed p s) :=
  (PortsBeside.of_local (placeOwed_local p s) (placeOwed_readsTaken p s).2).starts

theorem startTemplate_beside (p : Pos) (q : TemplateRequest) (s : State) : StartsBeside p s (startTemplate p q s) :=
  ((setChan_beside ..).trans ((Starts.of_portKey (startedRead_portKey p q _)).beside p)).trans (placeOwed_beside ..)

theorem startTemplate_state (p : Pos) (q : TemplateRequest) (s : State) :
    ((startTemplate p q s).chan p).state = .sending (templateTransaction s.pch q) := by
  have chan := congrArg (fun k => (atPos k.2.channels p).state) (startedRead_portKey p q
    (s.setChan p ({ s.chan p with internal := none }.enterSending (templateTransaction s.pch q))))
  rw [startTemplate, (placeOwed_readsTaken p _).1.state]
  exact chan.trans (congrArg Channel.state (State.setChan_chan_self ..))

/-- A channel that starts what it can has started it (R142). -/
theorem tryStart_started (p : Pos) (s : State) : Started (tryStart p s) p := by
  unfold tryStart
  split
  next idle =>
    split
    next q waits =>
      split
      next body =>
        refine fun _ => ⟨fun x hx => ?_, fun empty => ?_⟩
        · cases waits.symm.trans hx
          exact List.isEmpty_iff.1 body
        · cases waits.symm.trans empty
      next => exact .of_busy (by rw [startTemplate_state]; exact ChannelState.noConfusion)
    next empty =>
      have none_waits : ∀ q, (s.chan p).internal = some q → (s.pch.templateOf q).body = [] := fun q hq => by
        cases empty.symm.trans hq
      split
      next r waits =>
        split
        next sendable =>
          refine .of_busy ?_
          rw [startRelay, State.setChan_chan_self]
          exact ChannelState.noConfusion
        next unsendable =>
          refine fun _ => ⟨none_waits, fun _ x hx => ?_⟩
          cases waits.symm.trans hx
          exact Bool.eq_false_iff.2 unsendable
      next other => exact fun _ => ⟨none_waits, fun _ r waits => absurd waits (other r)⟩
  next busy => exact .of_busy fun idle => busy ((isIdle_iff _).2 idle)

theorem tryStart_beside (p : Pos) (s : State) : StartsBeside p s (tryStart p s) := by
  unfold tryStart
  repeat' split
  · exact (Starts.refl s).beside p
  · exact startTemplate_beside ..
  · exact setChan_beside ..
  all_goals exact (Starts.refl s).beside p

/-- Whatever was done at one channel, it then starts what it can (R142). -/
theorem StartsBeside.tryStart {s t : State} {p : Pos} (h : StartsBeside p s t) : Starts s (tryStart p t) := by
  refine ⟨fun q started => ?_⟩
  by_cases own : q = p
  · rw [own]
    exact tryStart_started p t
  · exact (tryStart_beside p t).started q own (h.started q own started)

theorem tryStart_starts (p : Pos) (s : State) : Starts s (tryStart p s) := ((Starts.refl s).beside p).tryStart

theorem placeRead_starts (p : Pos) (s : State) : Starts s (placeRead p s) := (placeOwed_beside p s).tryStart

theorem placeTemplate_starts (p : Pos) (q : TemplateRequest) (s : State) : Starts s (placeTemplate p q s) :=
  (setChan_beside ..).tryStart

theorem handRelay_starts (p : Pos) (r : RelayRequest) (s : State) : Starts s (handRelay p r s) :=
  (setChan_beside ..).tryStart

/-- After every channel has been looked at, each has started what it could. -/
theorem startChannels_started (s : State) (p : Pos) : Started (startChannels s) p := by
  have each : ∀ (l : List Pos) (s : State), p ∈ l → Started (forEach l Machine.tryStart s) p := by
    intro l
    induction l with
    | nil => exact fun _ h => absurd h List.not_mem_nil
    | cons q l ih =>
      intro s h
      by_cases own : p = q
      · rw [own]
        exact (Starts.forEach tryStart_starts l _).started q (tryStart_started q s)
      · exact ih _ ((List.mem_cons.1 h).resolve_left own)
  exact each allPos s (mem_allPos p)

/-! ### Steps -/

theorem enterReadBefore_starts (s : State) : Starts s (enterReadBefore s) :=
  Starts.trans (t := setStepState .readBefore s) (.of_pch rfl)
    (.forEach (fun p t => Starts.trans (t := t.setReg p _) (.of_pch rfl) (placeRead_starts p _)) _ _)

theorem ownSecondRead_starts (p : Pos) (s : State) : Starts s (ownSecondRead p s) := by
  unfold ownSecondRead
  split
  · exact .refl s
  · exact Starts.trans (t := s.setReg p _) (.of_pch rfl) (placeRead_starts p _)

theorem enterReadAfter_starts (s : State) : Starts s (enterReadAfter s) :=
  Starts.trans (t := { s with psc := { s.psc with stepState := .readAfter, timerUse := .none } }) (.of_pch rfl)
    (.forEach ownSecondRead_starts _ _)

theorem enterSettleAfter_starts (r : StepRecord) (s : State) : Starts s (enterSettleAfter r s) :=
  .of_ite (fun _ => Starts.trans (t := startTimer .settle .ms 1 r.settle.toNat
    (setMonitor .disarmed (recordStepEvent .windowEnd (setStepState .settleAfter s)))) (.of_pch rfl)
      (enterReadAfter_starts _)) fun _ => .of_pch rfl

theorem startStep_starts (r : StepRef) (s : State) : Starts s (startStep r s) := by
  rcases startStep_cases r s with e | ⟨-, e⟩ | ⟨x, -, e⟩ <;> rw [e]
  · exact .of_pch rfl
  · exact Starts.trans (t := activated r s) (.of_pch rfl) (enterReadBefore_starts _)
  · exact .of_portKey (enterArmed_portKey _)

theorem completeStep_starts (s : State) : Starts s (completeStep s) := by
  unfold completeStep
  split
  · exact .of_pch rfl
  · have finished : Starts s (finishStep { s with psc := { s.psc with queued := none } }) := .of_pch rfl
    exact finished.trans (startStep_starts ..)

theorem completeIfEmpty_starts (s : State) : Starts s (completeIfEmpty s) :=
  .of_ite (fun _ => completeStep_starts s) fun _ => .refl s

theorem armIfRead_starts (s : State) : Starts s (armIfRead s) := .of_portKey (armIfRead_portKey s)

theorem afterVerdict_starts (s : State) : Starts s (afterVerdict s) :=
  (completeIfEmpty_starts s).trans (armIfRead_starts _)

theorem giveVerdict_starts (p : Pos) (e : Entry) (s : State) : Starts s (giveVerdict p e s) :=
  .of_portKey (giveVerdict_portKey ..)

theorem registerVerdictActs_starts (p : Pos) (e : Entry) (c : RegContext) (s : State) :
    Starts s (registerVerdictActs p e c s) :=
  (Starts.trans (s := s) (t := holdReading p .none c.r0 c.r1 s) (.of_pch rfl) (giveVerdict_starts ..)).trans
    (afterVerdict_starts _)

theorem readOutcome_starts (p : Pos) (o : Verdict ⊕ Nat) (s : State) : Starts s (readOutcome p o s) := by
  unfold readOutcome readingFailed readingTaken
  repeat' split
  all_goals first
    | exact .refl s
    | exact registerVerdictActs_starts ..
    | exact Starts.trans (s := s) (t := holdReading _ _ _ _ s) (.of_pch rfl) (armIfRead_starts _)

theorem identifyOutcome_starts (p : Pos) (o : IdentifyOutcome) (x : Option (List Byte)) (s : State) :
    Starts s (identifyOutcome p o x s) := ⟨fun _ => id⟩

theorem emptyOutcome_starts (p : Pos) (q : TemplateRequest) (s : State) : Starts s (emptyOutcome p q s) := by
  unfold emptyOutcome
  split
  · exact identifyOutcome_starts ..
  · exact readOutcome_starts ..

/-! ### The rounds that end requests with an empty template -/

theorem endEmpty_starts (p : Pos) (q : TemplateRequest) (s : State) : Starts s (endEmpty p q s) :=
  ((((setChan_beside ..).trans ((Starts.of_portKey (startedRead_portKey p q _)).beside p)).trans
    (placeOwed_beside ..)).trans ((emptyOutcome_starts p q _).beside p)).tryStart

theorem endOneEmpty_starts (s : State) : Starts s (endOneEmpty s) := by
  rcases endOneEmpty_cases s with e | ⟨p, q, -, e⟩ <;> rw [e]
  · exact .refl s
  · exact endEmpty_starts ..

theorem rounds_start (n : Nat) (s : State) : Starts s (endOneEmpty^[n] s) := by
  induction n generalizing s with
  | zero => exact .refl s
  | succ n ih =>
    rw [Function.iterate_succ_apply]
    exact (endOneEmpty_starts s).trans (ih _)

theorem quiesce_starts (s : State) : Starts s (quiesce s) := by
  rw [quiesce_eq_iterate]
  exact rounds_start 64 s

/-- The rounds that a waiting template request can still take: an IDENTIFY request may give its slot to an owed read. -/
def slotRounds : Option TemplateRequest → Nat
  | none => 0
  | some (.registerRead _) => 1
  | some .identify => 2

/-- The rounds that the requests in the internal slots can still take, and those of a queued step (R47, R107). -/
def roundsLeft (s : State) : Nat := s.psc.queued.toList.length * 25 + ∑ q : Pos, slotRounds (s.chan q).internal

theorem slotRounds_le (x : Option TemplateRequest) : slotRounds x ≤ 2 := by
  rcases x with _ | _ | _ <;> simp [slotRounds]

/-- The slots of the twelve channels take 24 rounds at most. -/
theorem sum_slotRounds_le (s : State) : ∑ q : Pos, slotRounds (s.chan q).internal ≤ 24 :=
  (Finset.sum_le_sum fun q _ => slotRounds_le (s.chan q).internal).trans (by decide)

theorem roundsLeft_le (s : State) : roundsLeft s ≤ 49 := by
  have slots := sum_slotRounds_le s
  have queued : s.psc.queued.toList.length ≤ 1 := by cases s.psc.queued <;> simp
  unfold roundsLeft
  omega

theorem roundsLeft_congr {s t : State} (h : portKey t = portKey s) : roundsLeft t = roundsLeft s := by
  obtain ⟨queued, ports⟩ := Prod.mk.inj h
  simp only [roundsLeft, State.chan, queued, ports]

/-- With no step queued any more, a step that was queued has given way to fewer rounds. -/
theorem roundsLeft_lt_of_unqueued {s t : State} (h : s.psc.queued ≠ none) (k : t.psc.queued = none) :
    roundsLeft t < roundsLeft s := by
  obtain ⟨r, queued⟩ := Option.ne_none_iff_exists'.1 h
  have slots := sum_slotRounds_le t
  simp only [roundsLeft, queued, k, Option.toList_none, Option.toList_some, List.length_nil, List.length_singleton]
  omega

/-- An act at one channel leaves at least so many rounds fewer as its slot. -/
theorem roundsLeft_add_le {s t : State} {p : Pos} {n : Nat} (queued : t.psc.queued = s.psc.queued)
    (others : ∀ q, q ≠ p → (t.chan q).internal = (s.chan q).internal)
    (own : slotRounds (t.chan p).internal + n ≤ slotRounds (s.chan p).internal) :
    roundsLeft t + n ≤ roundsLeft s := by
  have split : ∀ u : State, ∑ q : Pos, slotRounds (u.chan q).internal =
      slotRounds (u.chan p).internal + ∑ q ∈ Finset.univ.erase p, slotRounds (u.chan q).internal := fun u =>
    (Finset.add_sum_erase _ _ (Finset.mem_univ p)).symm
  have rest : ∑ q ∈ Finset.univ.erase p, slotRounds (t.chan q).internal =
      ∑ q ∈ Finset.univ.erase p, slotRounds (s.chan q).internal :=
    Finset.sum_congr rfl fun q hq => by rw [others q (Finset.ne_of_mem_erase hq)]
  rw [roundsLeft, roundsLeft, queued, split t, split s, rest]
  omega

/-- A request that leaves its slot takes a round of it, also where an owed read follows it there (R107). -/
theorem roundsLeft_vacated {s : State} {p : Pos} {q : TemplateRequest} {c : Channel}
    (waits : (s.chan p).internal = some q) (empty : c.internal = none) :
    roundsLeft (placeOwed p (startedRead p q (s.setChan p c))) + 1 ≤ roundsLeft s := by
  have own : ((s.setChan p c).chan p).internal = none := by rw [State.setChan_chan_self]; exact empty
  have others : ∀ x, x ≠ p → (s.setChan p c).chan x = s.chan x := fun x hx => State.setChan_chan_ne s hx c
  cases q with
  | identify =>
    obtain ⟨taken, beside⟩ := placeOwed_readsTaken p (s.setChan p c)
    refine roundsLeft_add_le (p := p) taken.queued (fun x hx => ?_) ?_
    · exact congrArg Channel.internal ((beside x hx).trans (others x hx))
    · rw [waits, startedRead]
      rcases taken.chans p with e | ⟨d, e⟩ <;> rw [e]
      · rw [own]; decide
      · exact le_rfl
  | registerRead d =>
    obtain ⟨queued, ports⟩ := Prod.mk.inj (setRead_portKey p .active (s.setChan p c))
    have chans : ∀ x, (setRead p .active (s.setChan p c)).chan x = (s.setChan p c).chan x := fun x => by
      rw [State.chan, ports]; rfl
    rw [placeOwed_startedRead]
    refine roundsLeft_add_le (p := p) queued (fun x hx => ?_) ?_
    · rw [chans, others x hx]
    · rw [chans, own, waits]
      exact le_rfl

/-- A request that starts takes no round more. -/
theorem roundsLeft_tryStart (p : Pos) (s : State) : roundsLeft (tryStart p s) ≤ roundsLeft s := by
  have same : ∀ c : Channel, c.internal = (s.chan p).internal → roundsLeft (s.setChan p c) ≤ roundsLeft s := by
    intro c hc
    rw [← Nat.add_zero (roundsLeft (s.setChan p c))]
    refine roundsLeft_add_le (p := p) rfl (fun q hq => ?_) ?_
    · rw [State.setChan_chan_ne s hq]
    · rw [State.setChan_chan_self, hc]; exact le_rfl
  unfold tryStart
  repeat' split
  · exact le_rfl
  · exact (Nat.le_succ _).trans (roundsLeft_vacated ‹_› rfl)
  · exact same _ rfl
  all_goals exact le_rfl

/-! ### What a failed read can do to the ports (R46, R47, R108) -/

/-- The ports are as they were, or the queued step was started. -/
def PortsOrNext (s t : State) : Prop := portKey t = portKey s ∨ (s.psc.queued ≠ none ∧ t.psc.queued = none)

theorem PortsOrNext.roundsLeft_le {s t : State} (h : PortsOrNext s t) : roundsLeft t ≤ roundsLeft s := by
  rcases h with same | ⟨queued, none⟩
  · exact (roundsLeft_congr same).le
  · exact (roundsLeft_lt_of_unqueued queued none).le

theorem PortsOrNext.of_portKey {s t u : State} (h : portKey t = portKey s) (k : PortsOrNext t u) : PortsOrNext s u := by
  rcases k with same | ⟨queued, none⟩
  · exact .inl (same.trans h)
  · exact .inr ⟨fun e => queued ((congrArg Prod.fst h).trans e), none⟩

theorem PortsOrNext.then_portKey {s t u : State} (h : PortsOrNext s t) (k : portKey u = portKey t) :
    PortsOrNext s u := by
  rcases h with same | ⟨queued, none⟩
  · exact .inl (k.trans same)
  · exact .inr ⟨queued, (congrArg Prod.fst k).trans none⟩

theorem tryStart_queued (p : Pos) (s : State) : (tryStart p s).psc.queued = s.psc.queued := by
  have started : ∀ q, (startTemplate p q s).psc.queued = s.psc.queued := fun q =>
    (placeOwed_readsTaken p _).1.queued.trans (congrArg Prod.fst (startedRead_portKey p q _))
  unfold tryStart
  repeat' split
  all_goals first
    | rfl
    | exact started _

theorem ownFirstRead_queued (p : Pos) (s : State) : (ownFirstRead p s).psc.queued = s.psc.queued :=
  (tryStart_queued p _).trans (placeOwed_readsTaken p _).1.queued

theorem firstReads_queued (l : List Pos) (s : State) : (forEach l ownFirstRead s).psc.queued = s.psc.queued := by
  induction l generalizing s with
  | nil => rfl
  | cons p l ih => exact (ih _).trans (ownFirstRead_queued p s)

theorem startStep_queued (r : StepRef) (s : State) : (startStep r s).psc.queued = s.psc.queued := by
  rcases startStep_cases r s with e | ⟨-, e⟩ | ⟨x, -, e⟩ <;> rw [e]
  · rfl
  · rw [enterReadBefore_eq]
    exact firstReads_queued ..
  · exact congrArg Prod.fst (enterArmed_portKey _)

theorem completeIfEmpty_ports (s : State) : PortsOrNext s (completeIfEmpty s) := by
  unfold completeIfEmpty completeStep
  repeat' split
  · exact .inl rfl
  · exact .inr ⟨Option.ne_none_iff_exists'.2 ⟨_, ‹_›⟩, startStep_queued ..⟩
  · exact .inl rfl

theorem registerVerdictActs_ports (p : Pos) (e : Entry) (c : RegContext) (s : State) :
    PortsOrNext s (registerVerdictActs p e c s) :=
  .of_portKey (giveVerdict_portKey p e (holdReading p .none c.r0 c.r1 s))
    ((completeIfEmpty_ports _).then_portKey (armIfRead_portKey _))

theorem readOutcome_failed_ports (p : Pos) (v : Verdict) (s : State) : PortsOrNext s (readOutcome p (.inl v) s) := by
  unfold readOutcome
  split
  · exact .inl rfl
  · split
    · show PortsOrNext s (readingFailed p v _ s)
      unfold readingFailed
      split
      · exact registerVerdictActs_ports ..
      · exact .inl rfl
    · exact .inl rfl

/-! ### The rounds suffice -/

theorem roundsLeft_emptyOutcome (p : Pos) (q : TemplateRequest) (s : State) :
    roundsLeft (emptyOutcome p q s) ≤ roundsLeft s := by
  unfold emptyOutcome
  split
  · exact le_rfl
  · exact (readOutcome_failed_ports p .badReading s).roundsLeft_le

/-- A round that ends a request leaves fewer. -/
theorem roundsLeft_endEmpty {s : State} {p : Pos} {q : TemplateRequest} (h : emptyRequest s p = some q) :
    roundsLeft (endEmpty p q s) < roundsLeft s := by
  obtain ⟨-, waits, -⟩ := emptyRequest_eq_some_iff.1 h
  exact ((roundsLeft_tryStart ..).trans (roundsLeft_emptyOutcome ..)).trans_lt (roundsLeft_vacated waits rfl)

/-- No channel has a request to end when a round changes nothing, nor when none is left. -/
theorem emptyRequest_eq_none_of_rounds {s : State} {n : Nat} (enough : roundsLeft s ≤ n) (p : Pos) :
    emptyRequest (endOneEmpty^[n] s) p = none := by
  induction n generalizing s with
  | zero =>
    by_contra waits
    obtain ⟨q, waits⟩ := Option.ne_none_iff_exists'.1 waits
    have := roundsLeft_endEmpty waits
    rw [Function.iterate_zero_apply] at this
    omega
  | succ n ih =>
    rw [Function.iterate_succ_apply]
    cases found : nextEmpty s with
    | none =>
      have fixed : endOneEmpty s = s := by rw [endOneEmpty, found]
      rw [fixed, Function.iterate_fixed fixed]
      simpa using (List.find?_eq_none.1 found) p (mem_allPos p)
    | some x =>
      have holds : (emptyRequest s x).isSome = true := List.find?_some (p := fun x => (emptyRequest s x).isSome) found
      obtain ⟨q, waits⟩ := Option.isSome_iff_exists.1 holds
      have ended : endOneEmpty s = endEmpty x q s := by simp only [endOneEmpty, found, waits]
      rw [ended]
      have := roundsLeft_endEmpty waits
      exact ih (by omega)

/-- After the rounds that end an event every channel is served, if each had started what it could (R136, R142). -/
theorem quiesce_served {s : State} (h : ∀ p, Started s p) : Served (quiesce s) := by
  have started : ∀ p, Started (quiesce s) p := fun p => (quiesce_starts s).started p (h p)
  refine served_of_started started fun p idle => ?_
  by_contra waits
  obtain ⟨q, waits⟩ := Option.ne_none_iff_exists'.1 waits
  have empty := emptyRequest_eq_some_iff.2 ⟨idle, waits, (started p idle).1 q waits⟩
  have rounds : roundsLeft s ≤ 64 := (roundsLeft_le s).trans (by decide)
  rw [quiesce_eq_iterate, emptyRequest_eq_none_of_rounds rounds] at empty
  cases empty

end Sys2Proof.Proofs.Serving
end
section
/-! PROOFS. Each act of the module leaves its channels served: the end of an event, the steps, the gates, the ends of
transactions, the store and the resets (R136, R142, R144, R147). -/

namespace Sys2Proof.Proofs.Serving

open Sys2Proof.Machine Sys2Proof.Safety Sys2Proof.Proofs.Channels

/-! ### Changes of the channels that keep them served -/

theorem served_of_pch {s t : State} (h : Served s) (e : t.pch = s.pch) : Served t :=
  served_congr h fun p => by rw [State.chan, e]; rfl

theorem buildDue_served {s : State} (h : Served s) : Served (buildDue s) := served_congr h (buildDue_chan s)

/-- The end of an event serves every channel, if each has started what it could (R136, R142). -/
theorem settle_served {s : State} (h : ∀ p, Started s p) : Served (settle s) := buildDue_served (quiesce_served h)

theorem Starts.all {s t : State} (h : Starts s t) (k : Served s) (p : Pos) : Started t p :=
  h.started p (.of_served k p)

theorem Starts.settle_served {s t : State} (h : Starts s t) (k : Served s) : Served (settle t) :=
  Serving.settle_served (h.all k)

/-- One channel replaced by one that is served (R142). -/
theorem served_of_chan {s t : State} {p : Pos} (h : Served s) (chans : ∀ q, q ≠ p → t.chan q = s.chan q)
    (own : (t.chan p).state = .idle →
      (t.chan p).internal = none ∧ ∀ r, (t.chan p).relay = .waiting r → r.sendable = false) : Served t := by
  intro q
  by_cases hq : q = p
  · rw [hq]
    exact own
  · rw [chans q hq]
    exact h q

theorem setChan_served {s : State} {p : Pos} {c : Channel} (h : Served s)
    (own : c.state = .idle → c.internal = none ∧ ∀ r, c.relay = .waiting r → r.sendable = false) :
    Served (s.setChan p c) :=
  served_of_chan h (fun _ hq => State.setChan_chan_ne s hq c) (by rw [State.setChan_chan_self]; exact own)

/-- A relay slot without a waiting request, at a channel that was served. -/
theorem setRelay_served {s : State} (h : Served s) (p : Pos) {x : RelaySlot} (k : ∀ r, x ≠ .waiting r) :
    Served (s.setChan p { s.chan p with relay := x }) :=
  setChan_served h fun idle => ⟨(h p idle).1, fun r e => absurd e (k r)⟩

/-- A relay request handed to a served channel starts there or waits (R142, R154). -/
theorem handRelay_served {s : State} (h : Served s) (p : Pos) (r : RelayRequest) : Served (handRelay p r s) := by
  refine served_of_started (fun q => (handRelay_starts p r s).all h q) ?_
  have idle : IdleEmpty (s.setChan p { s.chan p with relay := .waiting r }) := by
    intro q
    by_cases hq : q = p
    · rw [hq, State.setChan_chan_self]
      exact fun idle => (h p idle).1
    · rw [State.setChan_chan_ne s hq]
      exact fun idle => (h q idle).1
  unfold handRelay
  by_cases free : ((s.setChan p { s.chan p with relay := .waiting r }).chan p).state = .idle
  · rcases tryStart_of_no_internal (idle p free) with e | ⟨x, e⟩ <;> rw [e]
    · exact idle
    · intro q
      by_cases hq : q = p
      · rw [hq, State.setChan_chan_self]
        exact fun busy => nomatch busy
      · rw [State.setChan_chan_ne _ hq]
        exact idle q
  · rw [tryStart_of_nothing fun e => absurd e free]
    exact idle

/-! ### Steps, exclusion and abort -/

theorem dropWork_beside (p : Pos) (s : State) : StartsBeside p s (dropWork p s) := by
  have ended : StartsBeside p s (if s.readingPhase && (s.reg p).isSome then endRead p s else s) := by
    split
    · exact setChan_beside ..
    · exact (Starts.refl s).beside p
  have dropped : ∀ t : State, Starts t (((t.setGate p none).setWindow p none).setReg p none) := fun _ => .of_pch rfl
  exact ended.trans ((dropped _).beside p)

/-- The channel that an exclusion frees starts what it can, before and after the completion of the step (R52, R142). -/
theorem exclude_starts (p : Pos) (s : State) : Starts s (exclude p s) :=
  .of_ite (fun _ => ((((((giveVerdict_starts ..).beside p).trans (dropWork_beside p _)).tryStart).trans
    (quiesce_starts _)).trans (afterVerdict_starts _)).trans (quiesce_starts _)) fun _ => .refl s

theorem exclude_served (p : Pos) {s : State} (h : Served s) : Served (exclude p s) := by
  unfold exclude
  split
  · refine quiesce_served fun q => ?_
    exact (((((giveVerdict_starts ..).beside p).trans (dropWork_beside p _)).tryStart.trans
      (quiesce_starts _)).trans (afterVerdict_starts _)).all h q
  · exact h

theorem abortFirst_served {s : State} (h : Served s) : Served (abortFirst s) := by
  unfold abortFirst
  split
  · exact quiesce_served (startChannels_started _)
  · exact h

theorem startStep_settles (r : StepRef) {s : State} (h : Served s) : Served (settle (startStep r s)) :=
  (startStep_starts r s).settle_served h

theorem stepRunActs_served (slot : Byte) (run : Word32) {s : State} (h : Served s) :
    Served (stepRunActs slot run s).1 := by
  unfold stepRunActs
  split
  · exact h
  · rw [accept_fst]
    exact startStep_settles _ (served_of_pch (abortFirst_served h) rfl)

theorem stepQueueActs_served (slot : Byte) (run : Word32) {s : State} (h : Served s) :
    Served (stepQueueActs slot run s).1 := by
  unfold stepQueueActs
  repeat' split
  · exact h
  · exact served_of_pch h rfl
  · rw [accept_fst]
    exact startStep_settles _ h

theorem stepAbortActs_served {s : State} (h : Served s) : Served (stepAbortActs s).1 := by
  unfold stepAbortActs
  repeat' split
  · rw [accept_fst]
    exact buildDue_served (served_of_pch (abortFirst_served h) rfl)
  · exact served_of_pch h rfl
  · exact h

/-! ### Expiries, triggers and the reference -/

theorem takeExpiry_pch (u : TimerUse) (s : State) : (takeExpiry u s).2.pch = s.pch := by
  unfold takeExpiry
  repeat' split
  all_goals rfl

theorem triggerDelayExpiry_served {s : State} (h : Served s) : Served (triggerDelayExpiry s) := by
  have taken := served_of_pch h (takeExpiry_pch .triggerDelay s)
  unfold triggerDelayExpiry
  dsimp only
  split
  · exact buildDue_served (served_of_pch taken (congrArg Prod.snd (enterRunning_portKey _)))
  · exact taken

theorem windowEndVerdict_starts (p : Pos) (s : State) : Starts s (windowEndVerdict p s) := by
  unfold windowEndVerdict
  split
  · exact giveVerdict_starts ..
  · exact giveVerdict_starts ..
  · exact .refl s

theorem windowEndActs_starts (s : State) : Starts s (windowEndActs s) := by
  unfold windowEndActs
  repeat' split
  · exact .refl s
  · exact enterSettleAfter_starts ..
  · exact (Starts.forEach windowEndVerdict_starts _ s).trans (completeIfEmpty_starts _)

theorem windowEnd_served {s : State} (h : Served s) : Served (windowEnd s) := by
  have taken := served_of_pch h (takeExpiry_pch .window s)
  unfold windowEnd
  dsimp only
  split
  · exact (windowEndActs_starts _).settle_served taken
  · exact taken

theorem settleExpiry_served {s : State} (h : Served s) : Served (settleExpiry s) := by
  have taken := served_of_pch h (takeExpiry_pch .settle s)
  unfold settleExpiry
  dsimp only
  split
  · exact (enterReadAfter_starts _).settle_served taken
  · exact taken

theorem refLostActs_served {s : State} (h : Served s) : Served (refLostActs s) := by
  unfold refLostActs
  split
  · refine quiesce_served fun q => ?_
    have verdicts : Starts s (forEach s.psc.running (fun p t => giveVerdict p (cutEntry .refLost p t) t) s) :=
      .forEach (fun p t => giveVerdict_starts p _ t) _ s
    have stopped : ∀ t, Starts t (stopTimer t) := fun _ => .of_pch rfl
    exact ((verdicts.trans (stopped _)).trans (completeIfEmpty_starts _)).all h q
  · exact h

theorem refLost_served {s : State} (h : Served s) : Served (refLost s) := by
  unfold refLost
  split
  · exact h
  · exact buildDue_served (refLostActs_served (served_of_pch h rfl))

theorem takeTrigger_served (x : Trigger) {s : State} (h : Served s) : Served (takeTrigger x s) := by
  unfold takeTrigger
  repeat' split
  · exact h
  · exact buildDue_served (served_of_pch h (congrArg Prod.snd (enterSettling_portKey s)))
  · exact h

theorem syncEdge_served {s : State} (h : Served s) : Served (syncEdge s) := by
  unfold syncEdge
  split
  · exact h
  · exact takeTrigger_served _ (served_of_pch h rfl)

theorem sourceReadyAssertion_served {s : State} (h : Served s) : Served (sourceReadyAssertion s) := by
  unfold sourceReadyAssertion
  split
  · exact h
  · exact takeTrigger_served _ (served_of_pch h rfl)

theorem referenceEdge_pch (e : RefEdge) (n : Nat) (s : State) : (referenceEdge e n s).pch = s.pch := by
  unfold referenceEdge countReference countInMonitor countInTimer advanceTimer
  repeat' split
  all_goals rfl

/-! ### Gates, windows and lines -/

theorem replaceGateResult_pch (p : Pos) (x : GateResult) (s : State) : (replaceGateResult p x s).pch = s.pch := by
  unfold replaceGateResult markGateResult
  split <;> rfl

theorem endGates_starts (p : Pos) (v : Verdict) (g : GateContext) (s : State) : Starts s (endGates p v g s) :=
  (Starts.trans (s := s) (t := s.setGate p (some { g with state := .done })) (.of_pch rfl)
    (giveVerdict_starts ..)).trans (afterVerdict_starts _)

theorem closeGate_starts (p : Pos) (r : StepRecord) (l : GateLatch) (g : GateContext) (s : State) :
    Starts s (closeGate p r l g s) := by
  unfold closeGate
  dsimp only
  split
  · exact .of_pch (replaceGateResult_pch p _ s)
  · exact (Starts.of_pch (replaceGateResult_pch p _ s)).trans (endGates_starts ..)

theorem gateEdge_starts (p : Pos) (g : GateContext) (s : State) : Starts s (gateEdge p g s) := by
  unfold gateEdge countGate
  repeat' split
  all_goals first
    | exact .of_pch rfl
    | exact closeGate_starts ..

theorem decideWindow_starts (p : Pos) (w : WindowRecord) (e : Entry) (s : State) : Starts s (decideWindow p w e s) :=
  (Starts.trans (s := s) (t := s.setWindow p (some { w with decided := true })) (.of_pch rfl)
    (giveVerdict_starts ..)).trans (completeIfEmpty_starts _)

theorem windowEdge_starts (p : Pos) (w : WindowRecord) (s : State) : Starts s (windowEdge p w s) := by
  unfold windowEdge creepEdge startEdge
  dsimp only
  repeat' split
  all_goals first
    | exact .of_pch rfl
    | exact decideWindow_starts ..

theorem handEdge_starts (p : Pos) (s : State) : Starts s (handEdge p s) := by
  unfold handEdge
  split
  · exact gateEdge_starts ..
  · exact windowEdge_starts ..
  · exact .refl s

theorem takeCandidate_served (p : Pos) {s : State} (h : Served s) : Served (takeCandidate p s) := by
  unfold takeCandidate
  split
  · exact served_of_pch h rfl
  · exact (handEdge_starts p _).settle_served (served_of_pch h rfl)

theorem gateTimeout_served (p : Pos) {s : State} (h : Served s) : Served (gateTimeout p s) := by
  unfold gateTimeout
  repeat' split
  · exact h
  · exact h
  · exact (endGates_starts ..).settle_served h

theorem unselectedTransition_pch (p : Pos) (s : State) : (unselectedTransition p s).pch = s.pch := by
  unfold unselectedTransition
  dsimp only
  split <;> rfl

theorem sampleLine_served (p : Pos) {s : State} (h : Served s) : Served (sampleLine p s) := by
  unfold sampleLine
  dsimp only
  split
  · exact takeCandidate_served p (served_of_pch h rfl)
  · exact served_of_pch h rfl

/-! ### Positions -/

theorem setIncluded_served (p : Pos) (b : Bool) {s : State} (h : Served s) : Served (setIncluded p b s) :=
  served_of_pch h rfl

theorem excludePosition_served (p : Pos) {s : State} (h : Served s) : Served (excludePosition p s) := by
  unfold excludePosition
  split
  · exact buildDue_served (exclude_served p (setIncluded_served p false h))
  · exact setIncluded_served p false h

theorem abortIdentify_ports (p : Pos) (s : State) : PortsBeside p s (abortIdentify p s) := by
  unfold abortIdentify
  split
  · refine .of_local ((cutIdentify_local p s).trans (identifyOutcome_local ..)) fun q hq => ?_
    exact State.setChan_chan_ne s hq _
  · exact .of_pch rfl p

/-- The channel that a clear frees starts what it can (R25, R142). -/
theorem clearPosition_served (p : Pos) {s : State} (h : Served s) : Served (clearPosition p s) := by
  have excluded := exclude_starts p (setIncluded p false s)
  have cleared : ∀ t : State, Starts t (reloadLine p (t.setPos p .cleared)) := fun _ => .of_pch rfl
  exact (((excluded.beside p).trans (abortIdentify_ports p _).starts).trans
    ((cleared _).beside p)).tryStart.settle_served (setIncluded_served p false h)

theorem positionClearActs_served (b : Byte) {s : State} (h : Served s) : Served (positionClearActs b s).1 := by
  unfold positionClearActs
  repeat' split
  · exact h
  · exact h
  · exact h
  · rw [acceptRecord_fst]
    exact clearPosition_served _ h

theorem includeOffActs_served (b : Byte) {s : State} (h : Served s) : Served (includeOffActs b s).1 := by
  unfold includeOffActs
  repeat' split
  · exact h
  · exact h
  · rw [acceptRecord_fst]
    exact excludePosition_served _ h

/-! ### The store -/

theorem storeAct_pch {s t : State} (h : StoreAct s t) : t.pch = s.pch := by rw [h.rest]

theorem jobOver_served {s : State} (h : Served s) : Served (jobOver s) := served_of_pch h (storeAct_pch (jobOver_act s))

/-! ### The ends of transactions -/

/-- A channel that was freed, and what else was done at it, starts what it can (R140 to R142). -/
theorem settle_tryStart_served {s t : State} {p : Pos} (h : Served s) (k : StartsBeside p s t) :
    Served (settle (tryStart p t)) := k.tryStart.settle_served h

theorem templateEnds_served (p : Pos) {f : State → State} (hf : ∀ s, Starts s (f s)) {s t : State} (h : Served s)
    (k : PortsBeside p s t) : Served (templateEnds p f t) :=
  settle_tryStart_served h ((k.starts.trans (setChan_beside ..)).trans ((hf _).beside p))

theorem freeChannel_served {s t : State} {p : Pos} (h : Served s) (k : PortsBeside p s t) :
    Served (freeChannel p t) := settle_tryStart_served h (k.starts.trans (setChan_beside ..))

theorem identifyReply_starts (p : Pos) (x : Option (List Byte)) (s : State) : Starts s (identifyReply p x s) := by
  unfold identifyReply
  split <;> exact identifyOutcome_starts ..

theorem readReply_starts (p : Pos) (x : Option Nat) (s : State) : Starts s (readReply p x s) := by
  unfold readReply
  split <;> exact readOutcome_starts ..

theorem sealOutcome_pch (p : Pos) (o : PortOutcome) (s : State) : (sealOutcome p o s).pch = s.pch := by
  unfold sealOutcome
  dsimp only
  split
  · rfl
  · exact (storeAct_pch (queueJob_act _ _)).trans rfl

theorem relayEffects_pch (p : Pos) (k : RelayKind) (o : PortOutcome) (s : State) :
    (relayEffects p k o s).pch = s.pch := by
  unfold relayEffects
  split
  · rfl
  · rfl
  · exact sealOutcome_pch ..

/-- A channel that offers an answer is freed, or it holds the answer (R141, R142, R185). -/
theorem offerFromChannel_served {s t : State} {p : Pos} (a : PortAnswer) (h : Served s) (k : PortsBeside p s t) :
    Served (offerFromChannel p a t) := by
  unfold offerFromChannel
  split
  · refine buildDue_served (served_of_chan h (k.trans (setChan_ports ..)).chans fun idle => ?_)
    have held : (((settleOwed t).setChan p { t.chan p with state := .replyHeld a }).chan p).state = .idle := idle
    rw [State.setChan_chan_self] at held
    cases held
  · exact freeChannel_served h (k.trans (.of_pch (by rfl) p))

theorem relayEnds_served (p : Pos) (r : RelayRequest) (f : Profile) (o : PortOutcome) (b : ReplyBuffer) {s t : State}
    (h : Served s) (k : PortsBeside p s t) : Served (relayEnds p r f o b t) :=
  offerFromChannel_served _ h (k.trans (.of_pch (relayEffects_pch ..) p))

theorem replyEnds_served (p : Pos) (x : Transaction) (b : ReplyBuffer) {s t : State} (h : Served s)
    (k : PortsBeside p s t) : Served (replyEnds p x b t) := by
  unfold replyEnds
  split
  · exact relayEnds_served _ _ _ _ _ h k
  · exact templateEnds_served p (identifyReply_starts p _) h k
  · exact templateEnds_served p (readReply_starts p _) h k

theorem silentEnds_served (p : Pos) (x : Transaction) (o : PortOutcome) {s t : State} (h : Served s)
    (k : PortsBeside p s t) : Served (silentEnds p x o t) := by
  unfold silentEnds
  split
  · exact relayEnds_served _ _ _ _ _ h k
  · exact templateEnds_served p (identifyOutcome_starts p _ _) h k
  · exact templateEnds_served p (readOutcome_starts p _) h k

theorem sendingEnd_served (p : Pos) {s : State} (h : Served s) : Served (sendingEnd p s) := by
  unfold sendingEnd
  repeat' split
  · exact setChan_served h fun busy => nomatch busy
  · exact silentEnds_served p _ _ h (setChan_ports ..)
  · exact h

theorem firstStartBit_served (p : Pos) {s : State} (h : Served s) : Served (firstStartBit p s) := by
  unfold firstStartBit
  split
  · exact setChan_served h fun busy => nomatch busy
  · exact h

theorem replyTimeout_served (p : Pos) {s : State} (h : Served s) : Served (replyTimeout p s) := by
  unfold replyTimeout
  split
  · exact silentEnds_served p _ _ h (.of_pch rfl p)
  · exact h

theorem replyEnd_served (p : Pos) (chars : List RxChar) {s : State} (h : Served s) : Served (replyEnd p chars s) := by
  unfold replyEnd
  split
  · exact replyEnds_served p _ _ h (setChan_ports ..)
  · exact h

theorem offerFromSlot_served (p : Pos) (a : PortAnswer) {s : State} (h : Served s) : Served (offerFromSlot p a s) := by
  unfold offerFromSlot
  split
  · exact served_of_pch (setRelay_served h p (x := .ended a) fun _ e => nomatch e) rfl
  · exact served_of_pch (setRelay_served h p (x := .empty) fun _ e => nomatch e) rfl

theorem heldAnswerTaken_served {s : State} (h : Served s) : Served (heldAnswerTaken s) := by
  unfold heldAnswerTaken releaseHeld
  repeat' split
  · exact h
  · exact h
  · exact freeChannel_served h (.of_pch (by rfl) _)
  · exact served_of_pch h rfl
  · exact served_of_pch (setRelay_served h _ (x := .empty) fun _ e => nomatch e) rfl
  · exact served_of_pch h rfl

/-! ### Commands of the ports -/

theorem identifyActs_served (mask : Word16) {s : State} (h : Served s) : Served (identifyActs mask s).1 := by
  unfold identifyActs
  split
  · exact h
  · rw [accept_fst]
    exact (Starts.forEach (fun p t => placeTemplate_starts p .identify t) _ s).settle_served h

theorem acceptSeal_pch (p : Pos) (s : State) : (acceptSeal p s).pch = s.pch := by
  unfold acceptSeal
  exact (storeAct_pch (queueJob_act _ _)).trans rfl

theorem actionEffects_pch (f : FrameRule) (p : Pos) (s : State) : (actionEffects f p s).pch = s.pch := by
  unfold actionEffects
  split
  · rfl
  · exact acceptSeal_pch ..
  · rfl

theorem portActs_served (tag position : Byte) (frame : List Byte) {s : State} (h : Served s) :
    Served (portActs tag position frame s) := by
  unfold portActs
  repeat' split
  · exact served_of_pch h rfl
  · exact served_of_pch h rfl
  · exact served_of_pch h rfl
  · exact handRelay_served (s := oweAnswer (actionEffects _ _ s)) (served_of_pch h (actionEffects_pch ..)) _ _

/-! ### The ends of header jobs -/

theorem makeSendable_served (p : Pos) (number : Nat) {s : State} (h : Served s) :
    Served (makeSendable p number s) := by
  unfold makeSendable
  repeat' split
  · exact handRelay_served h p _
  · exact h
  · exact h

theorem flowStoreFull_served (x : Header) {s : State} (h : Served s) : Served (flowStoreFull x s) := by
  have ended : Served ((s.setFlow x.pos none).setPos x.pos ((s.pos x.pos).sealEnds false)) := served_of_pch h rfl
  unfold flowStoreFull endUnsent
  repeat' split
  · exact offerFromSlot_served _ _ ended
  · exact ended
  · exact ended

theorem headerFailed_served (slot : Nat) (x : Header) {s : State} (h : Served s) : Served (headerFailed slot x s) := by
  have failed : Served (setSrs (failedSlot (.header slot x) slot x.number s.srs) s) := served_of_pch h rfl
  unfold headerFailed
  dsimp only
  repeat' split
  · exact flowStoreFull_served x failed
  · exact served_of_pch failed (storeAct_pch (retryHeader_act x _))
  · exact failed

theorem headerJobEnd_served (ok : Bool) {s : State} (h : Served s) : Served (headerJobEnd ok s) := by
  unfold headerJobEnd
  split
  · split
    · refine jobOver_served ?_
      split
      · exact makeSendable_served _ _ (served_of_pch h rfl)
      · exact headerFailed_served _ _ h
    · exact served_of_pch h rfl
  · exact h

/-! ### Resets -/

theorem resetAll_served (r : Srs) (s : State) : Served (resetAll r s) := by
  intro p _
  have chan : (resetAll r s).chan p = Channel.resetWith (s.chan p).onLine := atPos_map ..
  rw [chan]
  exact ⟨rfl, fun _ e => nomatch e⟩

theorem fullResetAct_served {s : State} (h : Served s) : Served (fullResetAct s) := by
  unfold fullResetAct
  split
  · exact resetAll_served s.srs.afterFull s
  · exact h

/-- A channel with nothing that waits in either slot (R147). -/
def SlotsCleared (c : Channel) : Prop := c.internal = none ∧ ∀ r, c.relay ≠ .waiting r

theorem offerAborted_chan (p : Pos) (r : RelayRequest) (s : State) {q : Pos} (hq : q ≠ p) :
    (offerAborted p r s).chan q = s.chan q := by
  unfold offerAborted
  dsimp only
  split <;> exact State.setChan_chan_ne s hq _

theorem offerFromSlot_chan (p : Pos) (a : PortAnswer) (s : State) {q : Pos} (hq : q ≠ p) :
    (offerFromSlot p a s).chan q = s.chan q := by
  unfold offerFromSlot
  split <;> exact State.setChan_chan_ne s hq _

theorem abortTransaction_chan (p : Pos) (s : State) {q : Pos} (hq : q ≠ p) :
    (abortTransaction p s).chan q = s.chan q := by
  unfold abortTransaction
  split
  · rw [offerAborted_chan _ _ _ hq, State.chan, relayEffects_pch]
    rfl
  · exact (abortIdentify_ports p s).chans q hq
  · exact State.setChan_chan_ne s hq _
  · rfl

/-- A waiting relay request that a reset ends leaves its slot for the answer or with it (R147). -/
theorem abortWaiting_chan (p : Pos) (s : State) : (∀ q, q ≠ p → (abortWaiting p s).chan q = s.chan q) ∧
    ((s.chan p).internal = none → SlotsCleared ((abortWaiting p s).chan p)) := by
  unfold abortWaiting
  split
  · rename_i r _
    have kept : ∀ q, (relayEffects p r.kind .aborted s).chan q = s.chan q := fun q => by
      rw [State.chan, relayEffects_pch]; rfl
    refine ⟨fun q hq => (offerFromSlot_chan _ _ _ hq).trans (kept q), fun empty => ?_⟩
    rw [← kept p] at empty
    unfold offerFromSlot
    split
    · have own : ∀ u : State, ∀ c, (u.setChan p c).chan p = c := fun u c => State.setChan_chan_self u p c
      exact (own (settleOwed _) _).symm ▸ ⟨empty, fun _ e => nomatch e⟩
    · have own : ∀ u : State, ∀ c, (u.setChan p c).chan p = c := fun u c => State.setChan_chan_self u p c
      exact (own (settleOwed _) _).symm ▸ ⟨empty, fun _ e => nomatch e⟩
  · rename_i other
    exact ⟨fun _ _ => rfl, fun empty => ⟨empty, other⟩⟩

theorem runResetChannel_chan (p : Pos) (s : State) :
    (∀ q, q ≠ p → (runResetChannel p s).chan q = s.chan q) ∧ SlotsCleared ((runResetChannel p s).chan p) := by
  obtain ⟨others, own⟩ := abortWaiting_chan p (dropWaiting p (abortIdentify p (abortTransaction p s)))
  refine ⟨fun q hq => ?_, own ?_⟩
  · rw [runResetChannel, others q hq, dropWaiting, State.setChan_chan_ne _ hq, (abortIdentify_ports p _).chans q hq,
      abortTransaction_chan p s hq]
  · rw [dropWaiting, State.setChan_chan_self]

/-- After a RUN reset no request waits at any channel (R147). -/
theorem runResetChannels_cleared (l : List Pos) (s : State) (p : Pos) (h : p ∈ l ∨ SlotsCleared (s.chan p)) :
    SlotsCleared ((forEach l runResetChannel s).chan p) := by
  induction l generalizing s with
  | nil => exact h.resolve_left List.not_mem_nil
  | cons q l ih =>
    obtain ⟨others, own⟩ := runResetChannel_chan q s
    refine ih (runResetChannel q s) ?_
    by_cases hp : p = q
    · rw [hp]
      exact .inr own
    · rw [others p hp]
      exact h.imp_left fun member => (List.mem_cons.1 member).resolve_left hp

theorem reloadLines_pch (l : List Pos) (s : State) : (forEach l reloadLine s).pch = s.pch := by
  induction l generalizing s with
  | nil => rfl
  | cons p l ih => exact (ih (reloadLine p s)).trans rfl

theorem runReset_served (s : State) : Served (runReset s) := by
  have cleared : Served (forEach allPos runResetChannel (runResetPsc s)) := by
    intro p _
    obtain ⟨empty, relay⟩ := runResetChannels_cleared allPos (runResetPsc s) p (.inl (mem_allPos p))
    exact ⟨empty, fun r waits => absurd waits (relay r)⟩
  unfold runReset runResetPiu
  generalize forEach allPos runResetChannel (runResetPsc s) = t at cleared ⊢
  exact served_of_pch cleared ((reloadLines_pch ..).trans rfl)

/-! ### The passing of a microsecond -/

/-- A change of the channels that leaves the two slots, and which of them are IDLE. -/
theorem served_of_map {s t : State} (h : Served s) (f : Channel → Channel) (e : ∀ p, t.chan p = f (s.chan p))
    (k : ∀ c, ((f c).state = .idle → c.state = .idle) ∧ (f c).internal = c.internal ∧ (f c).relay = c.relay) :
    Served t := by
  intro p
  obtain ⟨idle, internal, relay⟩ := k (s.chan p)
  rw [e, internal, relay]
  exact fun x => h p (idle x)

theorem microTick_served {s : State} (h : Served s) : Served (microTick s) :=
  served_of_map h Channel.passMicro (fun _ => atPos_map ..) fun _ => ⟨id, rfl, rfl⟩

theorem passMilli_keeps (c : Channel) :
    (c.passMilli.state = .idle → c.state = .idle) ∧ c.passMilli.internal = c.internal ∧ c.passMilli.relay = c.relay := by
  unfold Channel.passMilli
  split
  · exact ⟨fun busy => (nomatch busy), rfl, rfl⟩
  · exact ⟨id, rfl, rfl⟩

theorem tickTimer_pch (s : State) : (tickTimer s).pch = s.pch := by
  unfold tickTimer advanceTimer
  repeat' split
  all_goals rfl

theorem milliTick_served {s : State} (h : Served s) : Served (milliTick s) := by
  refine served_of_pch (s := { s with
    piu := { s.piu with millis := s.piu.millis + 1, monitor := s.piu.monitor.pass },
    pch := { s.pch with channels := s.pch.channels.map Channel.passMilli } }) ?_ (tickTimer_pch _)
  exact served_of_map h Channel.passMilli (fun _ => atPos_map ..) passMilli_keeps

theorem samples_served (l : List Pos) {s : State} (h : Served s) : Served (forEach l sampleLine s) := by
  induction l generalizing s with
  | nil => exact h
  | cons p l ih => exact ih (sampleLine_served p h)

theorem advance_served {s : State} (h : Served s) : Served (advance s) := by
  refine samples_served allPos ?_
  split
  · exact milliTick_served (microTick_served h)
  · exact microTick_served h

end Sys2Proof.Proofs.Serving
end
section
/-! PROOFS. What is due is done (R172, R190): the building of reports leaves none to build while their queue has room,
and the job queue never waits for a job to start. -/

namespace Sys2Proof.Proofs.Serving

open Sys2Proof.Machine Sys2Proof.Safety

/-! ### Reports -/

theorem hasReport_eq_false_iff {s : State} {p : Pos} : hasReport s p = false ↔ NoReport s p := by
  have listed : (oldestSealDone s p).isSome = false ↔ ∀ e ∈ s.bli.sealDone, e.pos ≠ p := by
    simp [oldestSealDone, Option.isSome_eq_false_iff]
  have marked : (s.marks p).verdict.isSome = false ∧ (s.marks p).identify = false ∧ (s.marks p).gate = false ↔
      s.marks p = { verdict := none, identify := false, gate := false } := by
    obtain ⟨verdict, identify, gate⟩ := s.marks p
    simp
  rw [NoReport, ← listed, ← marked]
  simp only [hasReport, Bool.or_eq_false_iff]
  tauto

/-- No report is due exactly where R190 leaves none to build. -/
theorem reported_iff {s : State} : Reported s ↔ s.reportDue = false := by
  have marked : s.hasMark = false ↔ NoModuleMark s ∧ ∀ p, NoReport s p := by
    simp only [State.hasMark, NoModuleMark, Bool.or_eq_false_iff, List.any_eq_false, Bool.not_eq_true,
      hasReport_eq_false_iff, mem_allPos, true_implies, and_assoc]
  have full : s.reportsFull = true ↔ 16 ≤ s.bli.reports.length := decide_eq_true_iff
  rw [Reported, ← marked, ← full, State.reportDue, Bool.and_eq_false_iff, Bool.not_eq_false', or_comm]

@[simp] theorem pushReport_reports (l : List Byte) (s : State) :
    (pushReport l s).bli.reports.length = s.bli.reports.length + 1 := List.length_append

/-- A position that has something to report gets one report built (R190). -/
theorem buildPositionReport_adds {s : State} {p : Pos} (h : hasReport s p = true) :
    (buildPositionReport p s).bli.reports.length = s.bli.reports.length + 1 := by
  unfold buildPositionReport buildSealReport buildIdentifyReport buildGateReport
  unfold hasReport at h
  repeat' split
  case isFalse verdict _ listed identify gate => simp [verdict, listed, identify, gate] at h
  all_goals exact pushReport_reports ..

/-- A report that is due is built (R190). -/
theorem buildReport_adds {s : State} (h : s.hasMark = true) :
    (buildReport s).bli.reports.length = s.bli.reports.length + 1 := by
  unfold buildReport buildFirstPosition
  split
  · exact pushReport_reports ..
  · split
    · exact pushReport_reports ..
    · split
      · exact pushReport_reports ..
      · rename_i refLost stepState store
        split
        · exact buildPositionReport_adds (List.find?_some ‹_›)
        · rename_i nobody
          have somebody : allPos.any (hasReport s) = true := by
            simpa [State.hasMark, refLost, stepState, store] using h
          obtain ⟨p, member, reports⟩ := List.any_eq_true.1 somebody
          exact absurd reports (List.find?_eq_none.1 nobody p member)

/-- A run of report building ends with none due, or has built as many as it may. -/
theorem buildReports_ends (n : Nat) (s : State) : (buildReports n s).reportDue = false ∨
    s.bli.reports.length + n ≤ (buildReports n s).bli.reports.length := by
  induction n generalizing s with
  | zero => exact .inr le_rfl
  | succ n ih =>
    unfold buildReports
    split
    next due =>
      have added := buildReport_adds (Bool.and_eq_true_iff.1 due).1
      exact (ih (buildReport s)).imp_right fun built => by omega
    next rest => exact .inl (Bool.eq_false_iff.2 rest)

/-- After the building of the reports that are due none is left to build while the queue has room (R190). -/
theorem buildDue_reported (s : State) : Reported (buildDue s) := by
  rcases buildReports_ends 16 s with none_due | built
  · exact reported_iff.2 none_due
  · exact .inl ((Nat.le_add_left ..).trans built)

theorem settle_reported (s : State) : Reported (settle s) := buildDue_reported _

/-- What R190 speaks of: the report queue, the marks and the SEAL_DONE entries. -/
def reportKey (s : State) : List Cell × Bool × Bool × Bool × PerPos PosMarks × List SealDone :=
  (s.bli.reports, s.bli.markRefLost, s.bli.markStepState, s.bli.markStore, s.bli.marks, s.bli.sealDone)

theorem reported_congr {s t : State} (h : reportKey t = reportKey s) (k : Reported s) : Reported t := by
  simp only [reportKey, Prod.mk.injEq] at h
  obtain ⟨reports, refLost, stepState, store, marks, listed⟩ := h
  simpa only [Reported, NoModuleMark, NoReport, State.marks, reports, refLost, stepState, store, marks, listed] using k

/-- REPORT_BUILD finds nothing to build where none is due. -/
theorem reportBuild_of_reported {s : State} (h : Reported s) : reportBuild s = s := by
  rw [reportBuild]
  split
  · rfl
  · rename_i room
    have unmarked : s.hasMark = false := by
      have := reported_iff.1 h
      rw [State.reportDue, Bool.eq_false_iff.2 room] at this
      simpa using this
    simp only [State.hasMark, Bool.or_eq_false_iff] at unmarked
    obtain ⟨⟨⟨refLost, stepState⟩, store⟩, nobody⟩ := unmarked
    have first : allPos.find? (hasReport s) = none :=
      List.find?_eq_none.2 fun p member => Bool.not_eq_true _ ▸ (List.any_eq_false.1 nobody p member)
    simp only [buildReport, refLost, stepState, store, buildFirstPosition, first, Bool.false_eq_true, if_false]

/-! ### Jobs -/

/-- Outside the scan no queued job waits while none runs (R172). -/
def JobsRunning (s : State) : Prop := s.srs.phase = .over → s.srs.running = none → s.srs.queue = []

theorem JobsRunning.congr {s t : State} (h : JobsRunning s) (e : t.srs = s.srs) : JobsRunning t := by
  rw [JobsRunning, e]
  exact h

/-- Starting jobs goes on until one runs or none is left (R172). -/
theorem startJobs_jobs (l : List Job) (s : State) :
    (startJobs l s).srs.running ≠ none ∨ (startJobs l s).srs.queue = [] := by
  induction l generalizing s with
  | nil => exact .inr rfl
  | cons j rest ih =>
    unfold startJobs
    split
    · exact .inl (Option.some_ne_none _)
    · exact ih _

theorem tryJobs_jobs (s : State) : JobsRunning (tryJobs s) := by
  unfold tryJobs
  split
  · exact fun _ idle => (startJobs_jobs s.srs.queue s).resolve_left (not_not_intro idle)
  · rename_i rests
    exact fun scanned idle => absurd (And.intro scanned idle) rests

theorem queueJob_jobs (j : Job) (s : State) : JobsRunning (queueJob j s) := tryJobs_jobs _

/-- A job waits behind a running one, and in the scan (R172). -/
theorem queueJob_waits {s : State} (j : Job) (h : s.srs.phase ≠ .over ∨ s.srs.running ≠ none) :
    queueJob j s = { s with srs := { s.srs with queue := s.srs.queue ++ [j] } } := by
  rw [queueJob, tryJobs, if_neg]
  exact fun ⟨scanned, idle⟩ => h.elim (absurd scanned) (absurd idle)

/-- A job that starts as it stands starts at once when none is queued or running (R172). -/
theorem queueJob_starts {s : State} {j : Job} (scanned : s.srs.phase = .over) (idle : s.srs.running = none)
    (empty : s.srs.queue = []) (plain : ∀ r, jobAtStart r j = some (r, j)) :
    queueJob j s = { s with srs := { s.srs with running := some j } } := by
  have alone : s.srs.queue ++ [j] = [j] := by rw [empty, List.nil_append]
  rw [queueJob, tryJobs, if_pos ⟨scanned, idle⟩]
  simp only [alone, startJobs, plain]
  rw [← empty]

/-- A job that starts as it stands changes the store part alone (R172). -/
theorem queueJob_plain {s : State} {j : Job} (h : JobsRunning s) (plain : ∀ r, jobAtStart r j = some (r, j)) :
    queueJob j s = { s with srs := (queueJob j s).srs } := by
  by_cases starts : s.srs.phase = .over ∧ s.srs.running = none
  · obtain ⟨scanned, idle⟩ := starts
    rw [queueJob_starts scanned idle (h scanned idle) plain]
  · rw [queueJob_waits j (not_and_or.1 starts)]

end Sys2Proof.Proofs.Serving
end
section
/-! PROOFS. Every command and event leaves the channels served and no report to build (R142, R190), and so does every
step. -/

namespace Sys2Proof.Proofs.Serving

open Sys2Proof.Machine Sys2Proof.Safety Sys2Proof.Proofs.Payloads

/-! ### What a command keeps -/

/-- A command leaves the channels served, the job queue without a job that could start, and no report to build. -/
structure Orderly (s t : State) : Prop where
  served   : Served s → Served t
  jobs     : JobsRunning s → JobsRunning t
  reported : JobsRunning s → Reported s → Reported t

theorem Orderly.refl (s : State) : Orderly s s := ⟨id, id, fun _ => id⟩

theorem Orderly.trans {s t u : State} (h : Orderly s t) (k : Orderly t u) : Orderly s u :=
  ⟨fun x => k.served (h.served x), fun x => k.jobs (h.jobs x), fun x y => k.reported (h.jobs x) (h.reported x y)⟩

/-- An act that changes no channel, nothing of the store, and nothing that is reported. -/
theorem Orderly.of_quiet {s t : State} (chans : ∀ p, t.chan p = s.chan p) (store : t.srs = s.srs)
    (reports : reportKey t = reportKey s) : Orderly s t :=
  ⟨fun h => served_congr h chans, fun h => h.congr store, fun _ => reported_congr reports⟩

/-- An act on positions and steps that ends with the building of reports. -/
theorem Orderly.of_built {s t : State} (served : Served s → Served (buildDue t)) (store : t.srs = s.srs) :
    Orderly s (buildDue t) :=
  ⟨served, fun h => h.congr ((buildDue_srs t).trans store), fun _ _ => buildDue_reported t⟩

theorem pushAnswer_orderly (tag : Byte) (a : Reply) (s : State) : Orderly s (pushAnswer tag a s) :=
  .of_quiet (fun _ => rfl) rfl rfl

theorem dropCommand_orderly (s : State) : Orderly s (dropCommand s) := .of_quiet (fun _ => rfl) rfl rfl

theorem takeCommand_orderly (tag : Byte) {act : State → State × Reply} {s : State} (h : Orderly s (act s).1) :
    Orderly s (takeCommand tag act s) := by
  rcases takeCommand_cases tag act s with ⟨-, e⟩ | ⟨-, -, e⟩ | ⟨-, -, e⟩ <;> rw [e]
  · exact .refl s
  · exact dropCommand_orderly s
  · exact h.trans (pushAnswer_orderly ..)

theorem takeVia_orderly (via : Via) {act : State → State × Reply} {s : State} (h : Orderly s (act s).1) :
    Orderly s (takeVia via act s) := by
  rcases takeVia_cases via act s with ⟨tag, -, e⟩ | ⟨-, -, e⟩ | ⟨-, -, e⟩ <;> rw [e]
  · exact takeCommand_orderly tag h
  · exact .refl s
  · exact h

/-! ### The owners of commands -/

theorem settingsWriteActs_orderly (limit reports : Byte) (s : State) :
    Orderly s (settingsWriteActs limit reports s).1 := by
  unfold settingsWriteActs
  repeat' split
  all_goals exact .of_quiet (fun _ => rfl) rfl rfl

theorem profileWriteActs_orderly (r : ProfileRecord) (s : State) : Orderly s (profileWriteActs r s).1 := by
  unfold profileWriteActs
  repeat' split
  all_goals exact .of_quiet (fun _ => rfl) rfl rfl

theorem templateWriteActs_orderly (which : Byte) (r : TemplateRecord) (s : State) :
    Orderly s (templateWriteActs which r s).1 := by
  unfold templateWriteActs setTemplate
  repeat' split
  all_goals exact .of_quiet (fun _ => rfl) rfl rfl

theorem templateReadActs_orderly (which : Byte) (s : State) : Orderly s (templateReadActs which s).1 := by
  unfold templateReadActs
  split <;> exact .refl s

theorem identifyActs_orderly (mask : Word16) (s : State) : Orderly s (identifyActs mask s).1 :=
  ⟨identifyActs_served mask, fun h => h.congr (identifyActs_local mask s).srs, fun _ k => by
    unfold identifyActs
    split
    · exact k
    · rw [accept_fst]
      exact settle_reported _⟩

theorem ruleWriteActs_orderly (index : Byte) (r : RuleRecord) (s : State) : Orderly s (ruleWriteActs index r s).1 := by
  unfold ruleWriteActs
  repeat' split
  all_goals exact .of_quiet (fun _ => rfl) rfl rfl

theorem ruleReadActs_orderly (index : Byte) (s : State) : Orderly s (ruleReadActs index s).1 := by
  unfold ruleReadActs
  split <;> exact .refl s

theorem planWriteActs_orderly (slot : Byte) (r : StepRecord) (s : State) : Orderly s (planWriteActs slot r s).1 := by
  unfold planWriteActs
  repeat' split
  all_goals exact .of_quiet (fun _ => rfl) rfl rfl

theorem planReadActs_orderly (slot : Byte) (s : State) : Orderly s (planReadActs slot s).1 := by
  unfold planReadActs
  split <;> exact .refl s

theorem planClearActs_orderly (slot : Byte) (s : State) : Orderly s (planClearActs slot s).1 := by
  unfold planClearActs
  repeat' split
  all_goals exact .of_quiet (fun _ => rfl) rfl rfl

theorem stepRunActs_orderly (slot : Byte) (run : Word32) (s : State) : Orderly s (stepRunActs slot run s).1 :=
  ⟨stepRunActs_served slot run, fun h => h.congr (stepRunActs_local slot run s).srs, fun _ k => by
    unfold stepRunActs
    split
    · exact k
    · rw [accept_fst]
      exact settle_reported _⟩

theorem stepQueueActs_orderly (slot : Byte) (run : Word32) (s : State) : Orderly s (stepQueueActs slot run s).1 :=
  ⟨stepQueueActs_served slot run, fun h => h.congr (stepQueueActs_local slot run s).srs, fun _ k => by
    unfold stepQueueActs
    repeat' split
    · exact k
    · exact reported_congr rfl k
    · rw [accept_fst]
      exact settle_reported _⟩

theorem stepAbortActs_orderly (s : State) : Orderly s (stepAbortActs s).1 :=
  ⟨stepAbortActs_served, fun h => h.congr (stepAbortActs_local s).srs, fun _ k => by
    unfold stepAbortActs
    repeat' split
    · rw [accept_fst]
      exact buildDue_reported _
    · exact reported_congr rfl k
    · exact k⟩

theorem loadPosition_orderly (p : Pos) (set : LineSettings) (r : LoadRecord) (s : State) :
    Orderly s (loadPosition p set r s) := by
  unfold loadPosition
  split <;> exact .of_quiet (fun _ => rfl) rfl rfl

theorem positionLoadActs_orderly (r : LoadRecord) (s : State) : Orderly s (positionLoadActs r s).1 := by
  unfold positionLoadActs
  repeat' split
  all_goals first
    | exact .refl s
    | exact loadPosition_orderly ..

theorem positionClearActs_orderly (b : Byte) (s : State) : Orderly s (positionClearActs b s).1 :=
  ⟨positionClearActs_served b, fun h => h.congr (positionClearActs_local b s).srs, fun _ k => by
    unfold positionClearActs
    repeat' split
    · exact k
    · exact k
    · exact k
    · rw [acceptRecord_fst]
      exact settle_reported _⟩

theorem includeOnActs_orderly (b : Byte) (s : State) : Orderly s (includeOnActs b s).1 := by
  unfold includeOnActs
  repeat' split
  all_goals exact .of_quiet (fun _ => rfl) rfl rfl

theorem includeOffActs_orderly (b : Byte) (s : State) : Orderly s (includeOffActs b s).1 :=
  ⟨includeOffActs_served b, fun h => h.congr (includeOffActs_local b s).srs, fun _ k => by
    unfold includeOffActs
    repeat' split
    · exact k
    · exact k
    · rw [acceptRecord_fst, excludePosition]
      split
      · exact buildDue_reported _
      · exact reported_congr rfl k⟩

theorem positionReadActs_orderly (b : Byte) (s : State) : Orderly s (positionReadActs b s).1 := by
  unfold positionReadActs
  split <;> exact .refl s

theorem resultReadActs_orderly (b n : Byte) (s : State) : Orderly s (resultReadActs b n s).1 := by
  unfold resultReadActs
  split <;> exact .refl s

theorem eachRecord_orderly (l : List Pos) (f : PositionRecord → PositionRecord) (s : State) :
    Orderly s (eachRecord l f s) := by
  rw [eachRecord_records_only]
  exact .of_quiet (fun _ => rfl) rfl rfl

theorem correctionComputeActs_orderly (mask : Word16) (a : Byte) (b : Option Byte) (s : State) :
    Orderly s (correctionComputeActs mask a b s).1 := by
  unfold correctionComputeActs
  repeat' split
  · exact .refl s
  · exact .refl s
  · exact eachRecord_orderly ..

theorem verifyEvaluateActs_orderly (mask : Word16) (l : List Byte) (s : State) :
    Orderly s (verifyEvaluateActs mask l s).1 := by
  unfold verifyEvaluateActs
  split
  · exact .refl s
  · exact eachRecord_orderly ..

/-- A job that a command queues starts as it stands, if it starts (R172). -/
theorem queueJob_orderly {j : Job} (plain : ∀ r, jobAtStart r j = some (r, j)) (s : State) :
    Orderly s (queueJob j s) :=
  ⟨fun h => served_of_pch h (storeAct_pch (queueJob_act j s)), fun _ => queueJob_jobs j s,
    fun h k => by rw [queueJob_plain h plain]; exact reported_congr rfl k⟩

theorem storeReadActs_orderly (slot : Word16) (s : State) : Orderly s (storeReadActs slot s).1 := by
  unfold storeReadActs
  repeat' split
  all_goals exact .refl s

theorem storeCollectActs_orderly (number : Word32) (s : State) : Orderly s (storeCollectActs number s).1 := by
  unfold storeCollectActs
  repeat' split
  · exact .refl s
  · exact .refl s
  · exact queueJob_orderly (fun _ => rfl) s

theorem storeEraseActs_orderly (sector : Byte) (s : State) : Orderly s (storeEraseActs sector s).1 := by
  unfold storeEraseActs
  repeat' split
  all_goals first
    | exact .refl s
    | exact queueJob_orderly (fun _ => rfl) s

/-! ### PORT -/

theorem tryStart_reportKey (p : Pos) (s : State) : reportKey (tryStart p s) = reportKey s := by
  have read : ∀ x (u : State), reportKey (setRead p x u) = reportKey u := fun x u => by
    unfold setRead
    split <;> rfl
  have placed : ∀ u : State, reportKey (placeOwed p u) = reportKey u := fun u => by
    unfold placeOwed
    split
    · exact read ..
    · rfl
  have started : ∀ q (u : State), reportKey (startedRead p q u) = reportKey u := fun q u => by
    unfold startedRead
    split
    · rfl
    · exact read ..
  unfold tryStart
  repeat' split
  · rfl
  · exact (placed _).trans (started ..)
  all_goals rfl

theorem handRelay_orderly (p : Pos) (r : RelayRequest) (s : State) : Orderly s (handRelay p r s) :=
  ⟨fun h => handRelay_served h p r, fun h => h.congr (handRelay_local p r s).srs,
    fun _ => reported_congr (tryStart_reportKey p _)⟩

/-- A seal acceptance before its header job: the number, the slot and the flow (R166 to R168). -/
def sealReserved (p : Pos) (s : State) : State :=
  ({ s with srs := { s.srs.reserve s.srs.nextSeal p with nextSeal := s.srs.nextSeal + 1 } }).setFlow p
    (some { number := s.srs.nextSeal, slot := s.srs.pointer })

theorem sealReserved_orderly (p : Pos) (s : State) : Orderly s (sealReserved p s) :=
  ⟨fun h => served_of_pch h rfl, id, fun _ => reported_congr rfl⟩

theorem acceptSeal_eq (p : Pos) (s : State) : acceptSeal p s =
    startWrite p .seal (queueJob (.header s.srs.pointer (flowHeader p s.srs.nextSeal s)) (sealReserved p s)) := rfl

theorem startWrite_orderly (p : Pos) (w : WriteInFlight) (s : State) : Orderly s (startWrite p w s) :=
  .of_quiet (fun _ => rfl) rfl rfl

theorem actionEffects_orderly (f : FrameRule) (p : Pos) (s : State) : Orderly s (actionEffects f p s) := by
  unfold actionEffects
  split
  · exact startWrite_orderly ..
  · rw [acceptSeal_eq]
    exact ((sealReserved_orderly p s).trans (queueJob_orderly (fun _ => rfl) _)).trans (startWrite_orderly ..)
  · exact .refl s

theorem oweAnswer_orderly (s : State) : Orderly s (oweAnswer s) := .of_quiet (fun _ => rfl) rfl rfl

theorem portActs_orderly (tag position : Byte) (frame : List Byte) (s : State) :
    Orderly s (portActs tag position frame s) := by
  unfold portActs
  repeat' split
  · exact pushAnswer_orderly ..
  · exact pushAnswer_orderly ..
  · exact pushAnswer_orderly ..
  · exact ((actionEffects_orderly ..).trans (oweAnswer_orderly _)).trans (handRelay_orderly ..)

theorem takePort_orderly (tag position : Byte) (frame : List Byte) (s : State) :
    Orderly s (takePort tag position frame s) := by
  unfold takePort
  repeat' split
  · exact .refl s
  · exact dropCommand_orderly s
  · exact portActs_orderly ..

/-! ### MODULE_RESET -/

theorem relayEffects_jobs (p : Pos) (k : RelayKind) (o : PortOutcome) {s : State} (h : JobsRunning s) :
    JobsRunning (relayEffects p k o s) := by
  unfold relayEffects sealOutcome
  dsimp only
  repeat' split
  · exact h
  · exact h
  · exact h
  · exact queueJob_jobs _ _

theorem abortTransaction_jobs (p : Pos) {s : State} (h : JobsRunning s) : JobsRunning (abortTransaction p s) := by
  unfold abortTransaction
  split
  · rename_i r _ _ _ _ _
    refine (relayEffects_jobs p r.kind .aborted h).congr ?_
    unfold offerAborted
    dsimp only
    split <;> rfl
  · exact h.congr (abortIdentify_local p s).srs
  · exact h
  · exact h

theorem abortWaiting_jobs (p : Pos) {s : State} (h : JobsRunning s) : JobsRunning (abortWaiting p s) := by
  unfold abortWaiting
  split
  · rename_i r _
    refine (relayEffects_jobs p r.kind .aborted h).congr ?_
    unfold offerFromSlot
    split <;> rfl
  · exact h

theorem runResetChannel_jobs (p : Pos) {s : State} (h : JobsRunning s) : JobsRunning (runResetChannel p s) :=
  abortWaiting_jobs p ((abortTransaction_jobs p h).congr (abortIdentify_local p _).srs)

theorem runResetChannels_jobs (l : List Pos) {s : State} (h : JobsRunning s) :
    JobsRunning (forEach l runResetChannel s) := by
  induction l generalizing s with
  | nil => exact h
  | cons p l ih => exact ih (runResetChannel_jobs p h)

theorem runReset_jobs {s : State} (h : JobsRunning s) : JobsRunning (runReset s) := by
  have steps : JobsRunning (runResetPsc s) := h.congr (abortStep_local s).srs
  have channels := runResetChannels_jobs allPos steps
  unfold runReset runResetPiu
  generalize forEach allPos runResetChannel (runResetPsc s) = t at channels ⊢
  exact channels.congr (Local.forEach reloadLine_local _).srs

theorem runReset_orderly (s : State) : Orderly s (buildDue (runReset s)) :=
  ⟨fun _ => buildDue_served (runReset_served s), fun h => (runReset_jobs h).congr (buildDue_srs _),
    fun _ _ => buildDue_reported _⟩

theorem moduleResetRun_orderly (via : Via) (s : State) : Orderly s (moduleResetRun via s) := by
  unfold moduleResetRun
  repeat' split
  · exact .refl s
  · exact dropCommand_orderly s
  · exact (pushAnswer_orderly ..).trans (runReset_orderly _)
  · exact .refl s
  · exact runReset_orderly s

theorem moduleResetFull_orderly (tag : Byte) (s : State) : Orderly s (moduleResetFull tag s) := by
  unfold moduleResetFull
  repeat' split
  · exact .refl s
  · exact dropCommand_orderly s
  · exact .of_quiet (fun _ => rfl) rfl rfl

/-! ### Commands in cells -/

/-- A command that a cell carries (R184). -/
theorem runCommand_orderly (i : Instr) (s : State) : Orderly s (runCommand i s) := by
  cases i with
  | unknownKind tag => exact takeCommand_orderly tag (.refl s)
  | statusRead tag => exact takeCommand_orderly tag (.refl s)
  | settingsWrite tag limit reports => exact takeCommand_orderly tag (settingsWriteActs_orderly limit reports s)
  | settingsRead tag => exact takeCommand_orderly tag (.refl s)
  | moduleResetRun via => exact moduleResetRun_orderly via s
  | moduleResetFull tag => exact moduleResetFull_orderly tag s
  | profileWrite tag r => exact takeCommand_orderly tag (profileWriteActs_orderly r s)
  | profileRead tag => exact takeCommand_orderly tag (.refl s)
  | templateWrite tag which r => exact takeCommand_orderly tag (templateWriteActs_orderly which r s)
  | templateRead tag which => exact takeCommand_orderly tag (templateReadActs_orderly which s)
  | identify tag mask => exact takeCommand_orderly tag (identifyActs_orderly mask s)
  | ruleWrite tag index r => exact takeCommand_orderly tag (ruleWriteActs_orderly index r s)
  | ruleRead tag index => exact takeCommand_orderly tag (ruleReadActs_orderly index s)
  | planWrite tag slot r => exact takeCommand_orderly tag (planWriteActs_orderly slot r s)
  | planRead tag slot => exact takeCommand_orderly tag (planReadActs_orderly slot s)
  | planClear tag slot => exact takeCommand_orderly tag (planClearActs_orderly slot s)
  | stepRun via slot run => exact takeVia_orderly via (stepRunActs_orderly slot run s)
  | stepQueue via slot run => exact takeVia_orderly via (stepQueueActs_orderly slot run s)
  | stepAbort via => exact takeVia_orderly via (stepAbortActs_orderly s)
  | positionLoad tag r => exact takeCommand_orderly tag (positionLoadActs_orderly r s)
  | positionClear tag position => exact takeCommand_orderly tag (positionClearActs_orderly position s)
  | positionIncludeOn tag position => exact takeCommand_orderly tag (includeOnActs_orderly position s)
  | positionIncludeOff tag position => exact takeCommand_orderly tag (includeOffActs_orderly position s)
  | positionRead tag position => exact takeCommand_orderly tag (positionReadActs_orderly position s)
  | resultRead tag position stepNo => exact takeCommand_orderly tag (resultReadActs_orderly position stepNo s)
  | correctionCompute tag mask a b => exact takeCommand_orderly tag (correctionComputeActs_orderly mask a b s)
  | verifyEvaluate tag mask steps => exact takeCommand_orderly tag (verifyEvaluateActs_orderly mask steps s)
  | port tag position frame => exact takePort_orderly tag position frame s
  | storeStatus tag => exact takeCommand_orderly tag (.refl s)
  | storeRead tag slot => exact takeCommand_orderly tag (storeReadActs_orderly slot s)
  | storeCollect tag number => exact takeCommand_orderly tag (storeCollectActs_orderly number s)
  | storeErase tag sector => exact takeCommand_orderly tag (storeEraseActs_orderly sector s)
  | _ => exact .refl s

theorem takeAddressed_orderly (c : Cell) (s : State) : Orderly s (takeAddressed c s) := by
  unfold takeAddressed takeMisfit
  repeat' split
  · exact .refl s
  · exact runCommand_orderly ..
  · exact dropCommand_orderly s
  · exact takeCommand_orderly c.tag (.refl s)

theorem takeBroadcast_orderly (c : Cell) (s : State) : Orderly s (takeBroadcast c s) := by
  unfold takeBroadcast
  split
  · exact runCommand_orderly ..
  · exact .refl s

theorem forwardDown_orderly (c : Cell) (s : State) : Orderly s (forwardDown c s) := .of_quiet (fun _ => rfl) rfl rfl

theorem upCell_orderly (c : Cell) (s : State) : Orderly s (upCell c s) := by
  unfold upCell
  repeat' split
  · exact .refl s
  · exact takeAddressed_orderly c s
  · exact (forwardDown_orderly c s).trans (takeBroadcast_orderly c _)
  · exact forwardDown_orderly c s

theorem upChar_orderly (s : State) (b : Byte) : Orderly s (upChar s b) := by
  have received : Orderly s (setRxUp (s.bli.rxUp.take b).1 s) := .of_quiet (fun _ => rfl) rfl rfl
  refine received.trans ?_
  show Orderly _ (upEvent _ _)
  unfold upEvent
  split
  · exact .refl _
  · exact .of_quiet (fun _ => rfl) rfl rfl
  · exact upCell_orderly ..

theorem upCellReceived_orderly (chars : List Byte) (s : State) : Orderly s (upCellReceived chars s) := by
  unfold upCellReceived
  induction chars generalizing s with
  | nil => exact .refl s
  | cons b chars ih => exact (upChar_orderly s b).trans (ih _)

theorem downChar_orderly (s : State) (b : Byte) : Orderly s (downChar s b) := by
  unfold downChar downEvent downCell forwardUp
  repeat' split
  all_goals exact .of_quiet (fun _ => rfl) rfl rfl

theorem downCellReceived_orderly (chars : List Byte) (s : State) : Orderly s (downCellReceived chars s) := by
  unfold downCellReceived
  induction chars generalizing s with
  | nil => exact .refl s
  | cons b chars ih => exact (downChar_orderly s b).trans (ih _)

end Sys2Proof.Proofs.Serving
end
section
/-! PROOFS. Every event leaves the channels served and no report to build (R142, R190), and so does every step. -/

namespace Sys2Proof.Proofs.Serving

open Sys2Proof.Machine Sys2Proof.Safety

/-! ### What an event keeps -/

/-- Channels that are served stay so, and no report to build is left where none was, and no job waited to start. -/
structure Keeps (s t : State) : Prop where
  served   : Served s → Served t
  reported : JobsRunning s → Reported s → Reported t

theorem Orderly.keeps {s t : State} (h : Orderly s t) : Keeps s t := ⟨h.served, h.reported⟩

theorem Keeps.refl (s : State) : Keeps s s := (Orderly.refl s).keeps

/-- An event that ends with the building of reports. -/
theorem Keeps.of_built {s t : State} (served : Served s → Served (buildDue t)) : Keeps s (buildDue t) :=
  ⟨served, fun _ _ => buildDue_reported t⟩

/-- An event that changes no channel and nothing that is reported. -/
theorem Keeps.of_quiet {s t : State} (chans : t.pch = s.pch) (reports : reportKey t = reportKey s) : Keeps s t :=
  ⟨fun h => served_of_pch h chans, fun _ => reported_congr reports⟩

/-- A reset leaves nothing to report (R191). -/
theorem resetAll_reported (r : Srs) (s : State) : Reported (resetAll r s) :=
  .inr ⟨⟨rfl, rfl, rfl⟩, fun _ => ⟨atPos_replicate .., fun _ h => nomatch h⟩⟩

theorem resetAll_keeps (r : Srs) (s : State) : Keeps s (resetAll r s) :=
  ⟨fun _ => resetAll_served r s, fun _ _ => resetAll_reported r s⟩

theorem fullResetAct_keeps (s : State) : Keeps s (fullResetAct s) := by
  unfold fullResetAct
  split
  · exact resetAll_keeps s.srs.afterFull s
  · exact .refl s

/-! ### Edges and expiries -/

theorem takeCandidate_reported (p : Pos) {s : State} (h : Reported s) : Reported (takeCandidate p s) := by
  unfold takeCandidate
  split
  · exact reported_congr rfl h
  · exact settle_reported _

theorem candidateEdge_keeps (p : Pos) (s : State) : Keeps s (candidateEdge p s) :=
  ⟨fun h => takeCandidate_served p (served_of_pch h rfl), fun _ h => takeCandidate_reported p (reported_congr rfl h)⟩

theorem unselectedTransition_keeps (p : Pos) (s : State) : Keeps s (unselectedTransition p s) :=
  .of_quiet (unselectedTransition_pch p s) (by unfold unselectedTransition; dsimp only; split <;> rfl)

theorem referenceEdge_keeps (e : RefEdge) (n : Nat) (s : State) : Keeps s (referenceEdge e n s) :=
  .of_quiet (referenceEdge_pch e n s) (by
    unfold referenceEdge countReference countInMonitor countInTimer advanceTimer
    repeat' split
    all_goals rfl)

theorem refLost_keeps (s : State) : Keeps s (refLost s) :=
  ⟨refLost_served, fun _ h => by
    unfold refLost
    split
    · exact h
    · exact buildDue_reported _⟩

theorem takeTrigger_reported (x : Trigger) {s : State} (h : Reported s) : Reported (takeTrigger x s) := by
  unfold takeTrigger
  repeat' split
  · exact h
  · exact buildDue_reported _
  · exact h

theorem syncEdge_keeps (s : State) : Keeps s (syncEdge s) :=
  ⟨syncEdge_served, fun _ h => by
    unfold syncEdge
    split
    · exact h
    · exact takeTrigger_reported _ (reported_congr rfl h)⟩

theorem sourceReadyAssertion_keeps (s : State) : Keeps s (sourceReadyAssertion s) :=
  ⟨sourceReadyAssertion_served, fun _ h => by
    unfold sourceReadyAssertion
    split
    · exact h
    · exact takeTrigger_reported _ (reported_congr rfl h)⟩

theorem takeExpiry_reportKey (u : TimerUse) (s : State) : reportKey (takeExpiry u s).2 = reportKey s := by
  unfold takeExpiry
  repeat' split
  all_goals rfl

theorem triggerDelayExpiry_keeps (s : State) : Keeps s (triggerDelayExpiry s) :=
  ⟨triggerDelayExpiry_served, fun _ h => by
    unfold triggerDelayExpiry
    dsimp only
    split
    · exact buildDue_reported _
    · exact reported_congr (takeExpiry_reportKey ..) h⟩

theorem windowEnd_keeps (s : State) : Keeps s (windowEnd s) :=
  ⟨windowEnd_served, fun _ h => by
    unfold windowEnd
    dsimp only
    split
    · exact settle_reported _
    · exact reported_congr (takeExpiry_reportKey ..) h⟩

theorem settleExpiry_keeps (s : State) : Keeps s (settleExpiry s) :=
  ⟨settleExpiry_served, fun _ h => by
    unfold settleExpiry
    dsimp only
    split
    · exact settle_reported _
    · exact reported_congr (takeExpiry_reportKey ..) h⟩

theorem gateTimeout_keeps (p : Pos) (s : State) : Keeps s (gateTimeout p s) :=
  ⟨gateTimeout_served p, fun _ h => by
    unfold gateTimeout
    repeat' split
    · exact h
    · exact h
    · exact settle_reported _⟩

/-! ### Transactions -/

theorem transactionStart_keeps (p : Pos) (s : State) : Keeps s (transactionStart p s) :=
  ⟨(tryStart_starts p s).settle_served, fun _ _ => settle_reported _⟩

theorem offerFromChannel_reported (p : Pos) (a : PortAnswer) (s : State) : Reported (offerFromChannel p a s) := by
  unfold offerFromChannel
  split
  · exact buildDue_reported _
  · exact settle_reported _

theorem silentEnds_reported (p : Pos) (x : Transaction) (o : PortOutcome) (s : State) :
    Reported (silentEnds p x o s) := by
  unfold silentEnds
  split
  · exact offerFromChannel_reported ..
  · exact settle_reported _
  · exact settle_reported _

theorem replyEnds_reported (p : Pos) (x : Transaction) (b : ReplyBuffer) (s : State) :
    Reported (replyEnds p x b s) := by
  unfold replyEnds
  split
  · exact offerFromChannel_reported ..
  · exact settle_reported _
  · exact settle_reported _

theorem sendingEnd_keeps (p : Pos) (s : State) : Keeps s (sendingEnd p s) :=
  ⟨sendingEnd_served p, fun _ h => by
    unfold sendingEnd
    repeat' split
    · exact reported_congr rfl h
    · exact silentEnds_reported ..
    · exact h⟩

theorem firstStartBit_keeps (p : Pos) (s : State) : Keeps s (firstStartBit p s) :=
  ⟨firstStartBit_served p, fun _ h => by
    unfold firstStartBit
    split
    · exact reported_congr rfl h
    · exact h⟩

theorem replyTimeout_keeps (p : Pos) (s : State) : Keeps s (replyTimeout p s) :=
  ⟨replyTimeout_served p, fun _ h => by
    unfold replyTimeout
    split
    · exact silentEnds_reported ..
    · exact h⟩

theorem replyEnd_keeps (p : Pos) (chars : List RxChar) (s : State) : Keeps s (replyEnd p chars s) :=
  ⟨replyEnd_served p chars, fun _ h => by
    unfold replyEnd
    split
    · exact replyEnds_reported ..
    · exact h⟩

theorem releaseHeld_reported (x : HeldAt) {s : State} (h : Reported s) : Reported (releaseHeld x s) := by
  cases x with
  | channel p =>
    rw [releaseHeld]
    split
    · exact settle_reported _
    · exact h
  | slot p =>
    rw [releaseHeld]
    split
    · exact reported_congr (s := s) rfl h
    · exact h

theorem heldAnswerTaken_keeps (s : State) : Keeps s (heldAnswerTaken s) :=
  ⟨heldAnswerTaken_served, fun _ h => by
    unfold heldAnswerTaken
    repeat' split
    · exact h
    · exact h
    · exact releaseHeld_reported _ (reported_congr (s := s) rfl h)⟩

/-! ### The store -/

theorem jobOver_keeps {s t : State} (h : Served s → Served t) : Keeps s (jobOver t) :=
  .of_built fun k => jobOver_served (h k)

theorem endWait_keeps (r : Srs) (s : State) : Keeps s (endWait r s) := .of_quiet rfl rfl

theorem scanDone_keeps (s : State) : Keeps s (scanDone s) := by
  unfold scanDone
  split
  · exact .of_built fun h => buildDue_served (served_of_pch h rfl)
  · exact .refl s

theorem jobStart_keeps (s : State) : Keeps s (buildDue (tryJobs s)) :=
  .of_built fun h => buildDue_served (served_of_pch h (storeAct_pch (tryJobs_act s)))

theorem headerJobEnd_keeps (ok : Bool) (s : State) : Keeps s (headerJobEnd ok s) :=
  ⟨headerJobEnd_served ok, fun _ h => by
    unfold headerJobEnd
    repeat' split
    · exact buildDue_reported _
    · exact buildDue_reported _
    · exact reported_congr rfl h
    · exact h⟩

theorem recordJobEnd_keeps (ok : Bool) (j : Job) (slot : Nat) (x : Header) (b : SealBody) (s : State) :
    Keeps s (recordJobEnd ok j slot x b s) := by
  unfold recordJobEnd
  split
  · refine jobOver_keeps fun h => ?_
    split
    · exact served_of_pch h (storeAct_pch (recordDone_act ..))
    · exact served_of_pch h (storeAct_pch (recordFailed_act ..))
  · exact endWait_keeps ..

theorem collectJobEnd_keeps (failed : List Nat) (s : State) : Keeps s (collectJobEnd failed s) := by
  unfold collectJobEnd
  repeat' split
  · exact jobOver_keeps fun h => served_of_pch h rfl
  · exact endWait_keeps ..
  · exact .refl s

theorem eraseJobEnd_keeps (ok : Bool) (s : State) : Keeps s (eraseJobEnd ok s) := by
  unfold eraseJobEnd
  split
  · split
    · exact jobOver_keeps fun h => served_of_pch h rfl
    · exact endWait_keeps ..
  · exact .refl s

/-! ### The bench link -/

theorem downForwardSend_keeps (s : State) : Keeps s (downForwardSend s) := by
  unfold downForwardSend
  split <;> exact .of_quiet rfl rfl

theorem startUp_pch (s : State) : (startUp s).pch = s.pch := by
  unfold startUp
  split <;> rfl

theorem upCellBoundary_keeps (s : State) : Keeps s (upCellBoundary s) := by
  unfold upCellBoundary
  split
  · exact resetAll_keeps s.srs.afterFull s
  · exact .of_built fun h => buildDue_served (served_of_pch h (startUp_pch s))

theorem fillChar_keeps (port : LinkPort) (s : State) : Keeps s (fillChar port s) := by
  unfold fillChar
  repeat' split
  all_goals exact .of_quiet rfl rfl

/-- A report is built where one is due; with none due the event changes nothing (R190). -/
theorem reportBuild_keeps (s : State) : Keeps s (reportBuild s) :=
  ⟨fun h => served_of_pch h (by rw [(reportBuild_built s).rest]),
    fun _ h => (reportBuild_of_reported h).symm ▸ h⟩

/-! ### The passing of a microsecond -/

theorem tickTimer_reportKey (s : State) : reportKey (tickTimer s) = reportKey s := by
  unfold tickTimer advanceTimer
  repeat' split
  all_goals rfl

theorem milliTick_reportKey (s : State) : reportKey (milliTick s) = reportKey s := tickTimer_reportKey _

theorem sampleLine_reported (p : Pos) {s : State} (h : Reported s) : Reported (sampleLine p s) := by
  unfold sampleLine
  dsimp only
  split
  · exact takeCandidate_reported p (reported_congr rfl h)
  · exact reported_congr rfl h

theorem samples_reported (l : List Pos) {s : State} (h : Reported s) : Reported (forEach l sampleLine s) := by
  induction l generalizing s with
  | nil => exact h
  | cons p l ih => exact ih (sampleLine_reported p h)

theorem advance_keeps (s : State) : Keeps s (advance s) :=
  ⟨advance_served, fun _ h => by
    have passed : Reported (microTick s) := reported_congr (s := s) rfl h
    have ticked : Reported (milliTick (microTick s)) := reported_congr (milliTick_reportKey _) passed
    refine samples_reported allPos ?_
    split
    · exact ticked
    · exact passed⟩

/-! ### Steps -/

/-- Every command and event of the model keeps the channels served and its reports built. -/
theorem exec_keeps (i : Instr) (s : State) : Keeps s (nextOr s (exec i s)) := by
  have commanded := (runCommand_orderly i s).keeps
  cases i with
  | powerOn cut => exact resetAll_keeps ..
  | fullResetAct => exact fullResetAct_keeps s
  | scanDone => exact scanDone_keeps s
  | candidateEdge p => exact candidateEdge_keeps p s
  | referenceEdge edge gap => exact referenceEdge_keeps edge gap s
  | refLost => exact refLost_keeps s
  | syncEdge => exact syncEdge_keeps s
  | sourceReadyAssertion => exact sourceReadyAssertion_keeps s
  | triggerDelayExpiry => exact triggerDelayExpiry_keeps s
  | windowEnd => exact windowEnd_keeps s
  | settleExpiry => exact settleExpiry_keeps s
  | gateTimeout p => exact gateTimeout_keeps p s
  | transactionStart p =>
    rw [exec, execTransactionStart, nextOr]
    exact transactionStart_keeps p s
  | sendingEnd p => exact sendingEnd_keeps p s
  | firstStartBit p => exact firstStartBit_keeps p s
  | replyTimeout p => exact replyTimeout_keeps p s
  | replyEnd p chars => exact replyEnd_keeps p chars s
  | heldAnswerTaken => exact heldAnswerTaken_keeps s
  | jobStart => exact jobStart_keeps s
  | headerJobEnd ok => exact headerJobEnd_keeps ok s
  | bodyJobEnd ok =>
    show Keeps s (bodyJobEnd ok s)
    unfold bodyJobEnd
    split
    · exact recordJobEnd_keeps ..
    · exact .refl s
  | fullRecordJobEnd ok =>
    show Keeps s (fullRecordJobEnd ok s)
    unfold fullRecordJobEnd
    split
    · exact recordJobEnd_keeps ..
    · exact .refl s
  | collectJobEnd failed => exact collectJobEnd_keeps failed s
  | eraseJobEnd ok => exact eraseJobEnd_keeps ok s
  | upCellReceived chars => exact (upCellReceived_orderly chars s).keeps
  | downCellReceived chars => exact (downCellReceived_orderly chars s).keeps
  | downForwardSend => exact downForwardSend_keeps s
  | upCellBoundary => exact upCellBoundary_keeps s
  | reportBuild => exact reportBuild_keeps s
  | sourceReadyFall => exact .of_quiet rfl rfl
  | syncInFall => exact .of_quiet rfl rfl
  | unselectedTransition p => exact unselectedTransition_keeps p s
  | fillBeforeCellComplete port => exact fillChar_keeps port s
  | _ => exact commanded

/-- What the module does of its own keeps them too. -/
theorem idleStep_keeps (s : State) : Keeps s (idleStep s) := by
  unfold idleStep
  split
  · rename_i i _
    rcases runAct_cases i s with e | ⟨e, -⟩ <;> rw [e]
    · exact .refl s
    · exact exec_keeps i s
  · exact advance_keeps s

theorem step_keeps {s t : State} (h : step s = .next t) : Keeps s t := by
  unfold step at h
  split at h
  · cases h
    exact idleStep_keeps s
  · rename_i i rest _
    have kept := exec_keeps i { s with pending := rest }
    rw [h] at kept
    exact ⟨kept.served, kept.reported⟩

/-- Settles O59: each command and event starts the request it gives to a channel or leaves waiting at one it frees, and
ends with the building of the reports it made due; a wait of either kind would need an act that does neither. -/
theorem everyStepLeavesChannelsServed : Obligations.EveryStepLeavesChannelsServed := by
  unfold Obligations.EveryStepLeavesChannelsServed
  refine ⟨fun s t served stepped => (step_keeps stepped).served served, fun s t settled reported stepped => ?_⟩
  obtain ⟨⟨jobs, -⟩, -⟩ := settled
  exact (step_keeps stepped).reported jobs reported

end Sys2Proof.Proofs.Serving
end
section
/-! PROOFS. The longest-held answer takes a free place of the answer queue (R185). -/

namespace Sys2Proof.Proofs.Channels

open Sys2Proof.Machine Sys2Proof.Safety

theorem exec_heldAnswerTaken (s : State) : exec .heldAnswerTaken s = .next (heldAnswerTaken s) := rfl

theorem answersFull_of_room {s : State} (room : s.bli.answers.length < 8) : s.answersFull = false :=
  decide_eq_false (Nat.not_le.2 room)

/-- A held answer leaves its place for the queue where the queue has room (R185). -/
theorem heldAnswerTaken_of_room {s : State} {h : HeldAt} {rest : List HeldAt} (held : s.bli.held = h :: rest)
    (room : s.bli.answers.length < 8) : heldAnswerTaken s = releaseHeld h (setHeld rest s) := by
  simp only [heldAnswerTaken, held, answersFull_of_room room, Bool.false_eq_true, if_false]

/-- With none held, or no place, the event changes nothing (R185). -/
theorem heldAnswerTaken_nothing {s : State} (h : s.bli.held = [] ∨ 8 ≤ s.bli.answers.length) :
    heldAnswerTaken s = s := by
  unfold heldAnswerTaken
  split
  · rfl
  · rename_i held
    have full : 8 ≤ s.bli.answers.length := h.resolve_left fun none => by simp [none] at held
    exact if_pos (decide_eq_true full)

/-- A channel that is freed with nothing that waits at any other enters IDLE and starts nothing (R142). -/
theorem freeChannel_nothing {s : State} {p : Pos} (others : OthersServed s p) (waits : NothingWaits s p) :
    freeChannel p s = buildDue (s.setChan p (idleChannel (s.chan p))) := by
  obtain ⟨internal, relay⟩ := waits
  have freed : (s.setChan p (s.chan p).free).chan p = (s.chan p).free := State.setChan_chan_self ..
  have rests : tryStart p (s.setChan p (s.chan p).free) = s.setChan p (s.chan p).free :=
    tryStart_of_nothing fun _ => freed.symm ▸ ⟨internal, relay⟩
  rw [freeChannel, rests]
  exact settle_of_idleEmpty (idleEmpty_of_others others (fun q hq => State.setChan_chan_ne s hq _)
    fun _ => freed.symm ▸ internal)

/-- Settles O42: the channel that held the answer is freed where nothing waits for it, and a relay slot is emptied. -/
theorem heldAnswerTakesPlace : Obligations.HeldAnswerTakesPlace := by
  unfold Obligations.HeldAnswerTakesPlace
  simp only [exec_heldAnswerTaken]
  refine fun s => ⟨fun nothing => congrArg _ (heldAnswerTaken_nothing nothing), fun room p rest a => ⟨?_, ?_⟩⟩
  · intro held state others waits
    rw [heldAnswerTaken_of_room held room]
    have released : releaseHeld (.channel p) (setHeld rest s) = freeChannel p (pushPortAnswer a (setHeld rest s)) := by
      simp only [releaseHeld]
      rw [show ((setHeld rest s).chan p).state = .replyHeld a from state]
    rw [released, freeChannel_nothing (s := pushPortAnswer a (setHeld rest s)) others waits]
    rfl
  · intro held relay
    rw [heldAnswerTaken_of_room held room]
    simp only [releaseHeld]
    rw [show ((setHeld rest s).chan p).relay = .ended a from relay]
    rfl

end Sys2Proof.Proofs.Channels
end
section
/-! PROOFS. MODULE_RESET FULL is answered OK, and acts at the last byte of its answer (R187). -/

namespace Sys2Proof.Proofs.Resets

open Sys2Proof.Machine Sys2Proof.Safety

/-! ### What a reset leaves -/

theorem resetRules_resetRules : ResetRules resetRules :=
  ⟨fun i below => by
    have other : 15 ≠ i.val := by omega
    simp [resetRules, Vector.getElem_set_ne, other, FrameRule.off], rfl⟩

/-- A reset brings every line, read from its pin, into the state of a first sample (R1, R57). -/
theorem resetAll_line (r : Srs) (s : State) (p : Pos) :
    (resetAll r s).line p = Line.loaded (s.line p).level (s.line p).level := by
  simp only [resetAll, Piu.reset, State.line, atPos_map]

/-- A reset leaves a channel IDLE with nothing waiting, and the character on its line (R144, R147). -/
theorem resetAll_chan (r : Srs) (s : State) (p : Pos) :
    (resetAll r s).chan p = Channel.resetWith (s.chan p).onLine := atPos_map ..

/-- Every block takes its power-on values at a reset; of the store this says its flows and its last event. -/
theorem resetAll_powerOnValues {r : Srs} (s : State) (event : r.lastEvent = none)
    (flows : r.flows = Vector.replicate 12 none) : PowerOnValues (resetAll r s) where
  records p := by
    have record : (resetAll r s).pos p = PositionRecord.cleared := atPos_replicate ..
    rw [record]
    exact ⟨rfl, rfl, rfl, rfl, ⟨rfl, rfl⟩, ⟨rfl, rfl, rfl⟩, rfl, rfl, fun n => by simp [PositionRecord.cleared], rfl, rfl, rfl⟩
  settings := ⟨rfl, rfl⟩
  lines p := by
    rw [resetAll_line]
    exact ⟨rfl, rfl, rfl, rfl, rfl, rfl⟩
  counts := ⟨rfl, rfl⟩
  monitor := rfl
  timer := ⟨rfl, rfl, rfl, rfl, rfl⟩
  plan n := Vector.getElem_replicate ..
  step := ⟨rfl, rfl, rfl, rfl, rfl, rfl, rfl⟩
  work p := ⟨atPos_replicate .., atPos_replicate .., atPos_replicate ..⟩
  profile := rfl
  templates := ⟨rfl, rfl⟩
  channels p := by
    rw [resetAll_chan]
    rfl
  outcomes p := atPos_replicate ..
  rules := resetRules_resetRules
  store := ⟨event, fun p => by
    have flow : (resetAll r s).flow p = atPos r.flows p := rfl
    rw [flow, flows]
    exact atPos_replicate ..⟩
  link :=
    { receivers := ⟨rfl, rfl⟩, fill := ⟨rfl, rfl⟩, queues := ⟨rfl, rfl, rfl, rfl⟩, owed := ⟨rfl, rfl⟩,
      marks := ⟨rfl, rfl, rfl⟩, posMarks := fun p => atPos_replicate .., sealDone := rfl,
      tallies := ⟨rfl, rfl, rfl, rfl, rfl⟩, takes := rfl }

/-! ### The FULL reset -/

theorem moduleResetFull_ready {s : State} (ready : Ready s) (tag : Byte) : moduleResetFull tag s = armFull tag s := by
  simp only [moduleResetFull, deaf_of_ready ready, answersFull_of_ready ready, Bool.false_eq_true, if_false]

theorem sendsFull_iff {s : State} : s.sendsFull = true ↔ ∃ x, s.bli.txUp = some x ∧ x.out.actsFull = true :=
  Option.any_eq_true ..

theorem afterFull_lastEvent (r : Srs) : r.afterFull.lastEvent = none := by
  unfold Srs.afterFull
  split <;> rfl

theorem afterFull_flows (r : Srs) : r.afterFull.flows = Vector.replicate 12 none := by
  unfold Srs.afterFull
  split <;> rfl

theorem afterFull_contents (r : Srs) : r.afterFull.contents = r.contents := by
  unfold Srs.afterFull
  split <;> rfl

/-- At the last byte of its answer a FULL reset acts. -/
theorem exec_fullResetAct_sent {s : State} {x : Sending} (sending : s.bli.txUp = some x)
    (full : x.out.actsFull = true) : exec .fullResetAct s = .next (resetAll s.srs.afterFull s) :=
  congrArg Host.Outcome.next (if_pos (sendsFull_iff.2 ⟨x, sending, full⟩))

theorem exec_upCellBoundary_sent {s : State} {x : Sending} (sending : s.bli.txUp = some x)
    (full : x.out.actsFull = true) : exec .upCellBoundary s = .next (resetAll s.srs.afterFull s) :=
  congrArg Host.Outcome.next (if_pos (sendsFull_iff.2 ⟨x, sending, full⟩))

theorem exec_fullResetAct_other {s : State} (other : ∀ x, s.bli.txUp = some x → x.out.actsFull = false) :
    exec .fullResetAct s = .next s := by
  refine congrArg Host.Outcome.next (if_neg fun sends => ?_)
  obtain ⟨x, sending, full⟩ := sendsFull_iff.1 sends
  rw [other x sending] at full
  cases full

/-- Settles O5: the command arms the reset at its answer, and the reset sets every block but the store to its power-on
values; the store waits for a running operation, or begins its scan. -/
theorem fullResetIsAnsweredThenActs : Obligations.FullResetIsAnsweredThenActs := by
  unfold Obligations.FullResetIsAnsweredThenActs
  refine ⟨fun tag s ready => congrArg _ (moduleResetFull_ready ready tag), ?_, ?_, fun s => exec_fullResetAct_other⟩
  · intro s x sending full
    refine ⟨_, exec_fullResetAct_sent sending full, resetAll_powerOnValues s (afterFull_lastEvent _) (afterFull_flows _),
      afterFull_contents s.srs, fun idle => ?_, fun running => ?_, fun p => ?_, rfl, rfl⟩
    · rw [show (resetAll s.srs.afterFull s).srs = s.srs.afterFull from rfl, Srs.afterFull_idle idle]
      exact ⟨rfl, rfl, rfl, rfl⟩
    · rw [show (resetAll s.srs.afterFull s).srs = s.srs.afterFull from rfl, Srs.afterFull_running running]
      exact ⟨rfl, rfl, rfl, rfl⟩
    · rw [resetAll_line, resetAll_chan]
      exact ⟨rfl, rfl⟩
  · intro s x sending full
    rw [exec_upCellBoundary_sent sending full, exec_fullResetAct_sent sending full]

end Sys2Proof.Proofs.Resets
end
section
/-! PROOFS. The port profile and the templates: their ranges, their writes and their reads (R132, R136). -/

namespace Sys2Proof.Proofs.Settings

open Sys2Proof.Machine Sys2Proof.Safety

/-- A word goes out high byte first, as it came in (11.7). -/
theorem beBytes_toNat (w : Word16) : beBytes 2 w.toNat = bytes16 w := by
  have high : BitVec.ofNat 8 (w.toNat / 256 ^ 1) = w.extractLsb' 8 8 := by
    simp [BitVec.extractLsb', Nat.shiftRight_eq_div_pow]
  have low : BitVec.ofNat 8 (w.toNat / 256 ^ 0) = w.extractLsb' 0 8 := by simp [BitVec.extractLsb']
  simp only [beBytes, bytes16, high, low]

theorem byteOf_toNat (b : Byte) : byteOf b.toNat = b := by simp [byteOf]

/-! ### The profile -/

theorem parityOf_eq_some_iff {b : Byte} {x : Parity} : parityOf b = some x ↔ x.code = b := by
  constructor
  · intro known
    unfold parityOf at known
    split at known <;> cases known <;> exact BitVec.eq_of_toNat_eq (by simp [Parity.code, *])
  · rintro rfl
    cases x <;> rfl

theorem checksumKindOf_eq_some_iff {b : Byte} {x : ChecksumKind} : checksumKindOf b = some x ↔ x.code = b := by
  constructor
  · intro known
    unfold checksumKindOf at known
    split at known <;> cases known <;> exact BitVec.eq_of_toNat_eq (by simp [ChecksumKind.code, *])
  · rintro rfl
    cases x <;> rfl

theorem parityCode_le (x : Parity) : x.code.toNat ≤ 2 := by cases x <;> decide

theorem checksumCode_le (x : ChecksumKind) : x.code.toNat ≤ 3 := by cases x <;> decide

theorem checksumCode_inj {x y : ChecksumKind} : x.code = y.code ↔ x = y := by
  refine ⟨fun same => Option.some_inj.1 ?_, congrArg _⟩
  rw [← checksumKindOf_eq_some_iff.2 same, checksumKindOf_eq_some_iff.2 rfl]

theorem exists_parity {b : Byte} (h : b.toNat ≤ 2) : ∃ x : Parity, x.code = b := by
  have : b = 0 ∨ b = 1 ∨ b = 2 := by bv_omega
  rcases this with rfl | rfl | rfl
  · exact ⟨.none, rfl⟩
  · exact ⟨.even, rfl⟩
  · exact ⟨.odd, rfl⟩

theorem exists_checksumKind {b : Byte} (h : b.toNat ≤ 3) : ∃ x : ChecksumKind, x.code = b := by
  have : b = 0 ∨ b = 1 ∨ b = 2 ∨ b = 3 := by bv_omega
  rcases this with rfl | rfl | rfl | rfl
  · exact ⟨.none, rfl⟩
  · exact ⟨.sum8, rfl⟩
  · exact ⟨.xor8, rfl⟩
  · exact ⟨.crc16, rfl⟩

theorem profileRangesOk_iff {r : ProfileRecord} : profileRangesOk r = true ↔
    r.divisor.toNat ≤ 4095 ∧ (r.dataBits = 7 ∨ r.dataBits = 8) ∧ r.stopBits = 1 ∧ 11 ≤ r.gap.toNat ∧
      r.gap.toNat ≤ 1000 ∧ r.codeAt.toNat ≤ 62 ∧ r.start.toNat ≤ 15 := by
  have bits : 7 ≤ r.dataBits.toNat ∧ r.dataBits.toNat ≤ 8 ↔ r.dataBits = 7 ∨ r.dataBits = 8 := by bv_omega
  have stop : r.stopBits.toNat = 1 ↔ r.stopBits = 1 := by bv_omega
  simp only [profileRangesOk, Bool.and_eq_true, inRange_iff, decide_eq_true_eq, bits, stop, Nat.zero_le, true_and,
    and_assoc]

/-- A record stands for a profile exactly where all of its fields lie in their ranges (R132, 8.1). -/
theorem profileOf_eq_some_iff {r : ProfileRecord} {f : Profile} :
    profileOf r = some f ↔ ProfileLegal r ∧ ProfileIs f r := by
  have sevenBits : decide (r.dataBits.toNat = 7) = decide (r.dataBits = 7) := by
    simp only [← BitVec.toNat_inj]
    rfl
  constructor
  · intro known
    unfold profileOf at known
    split at known
    · rename_i par kind hpar hkind
      rw [parityOf_eq_some_iff] at hpar
      rw [checksumKindOf_eq_some_iff] at hkind
      split at known
      · rename_i ranges
        obtain ⟨divisor, bits, stop, low, high, code, start⟩ := profileRangesOk_iff.1 ranges
        cases known
        exact ⟨⟨divisor, bits, hpar ▸ parityCode_le par, stop, low, high, code, hkind ▸ checksumCode_le kind, start⟩,
          ⟨rfl, sevenBits, hpar, rfl, rfl, hkind, rfl⟩⟩
      · cases known
    · cases known
  · rintro ⟨⟨divisor, bits, -, stop, low, high, code, -, start⟩, same⟩
    have ranges := profileRangesOk_iff.2 ⟨divisor, bits, stop, low, high, code, start⟩
    simp only [profileOf, parityOf_eq_some_iff.2 same.parity, checksumKindOf_eq_some_iff.2 same.checksum, ranges,
      if_true, sevenBits, ← same.divisor, ← same.bits, ← same.gap, ← same.codeAt, ← same.start]

theorem profileOf_illegal {r : ProfileRecord} (h : ¬ ProfileLegal r) : profileOf r = none :=
  Option.eq_none_iff_forall_ne_some.2 fun _ known => h (profileOf_eq_some_iff.1 known).1

theorem exists_profile {r : ProfileRecord} (h : ProfileLegal r) : ∃ f, ProfileIs f r := by
  obtain ⟨-, -, parity, -, -, -, -, checksum, -⟩ := h
  obtain ⟨par, hpar⟩ := exists_parity parity
  obtain ⟨kind, hkind⟩ := exists_checksumKind checksum
  exact ⟨⟨r.divisor.toNat, decide (r.dataBits = 7), par, r.gap.toNat, r.codeAt.toNat, kind, r.start.toNat⟩,
    rfl, rfl, hpar, rfl, rfl, hkind, rfl⟩

/-- A profile is read as the record that wrote it (11.7). -/
theorem profileBytes_eq {f : Profile} {r : ProfileRecord} (same : ProfileIs f r) (stop : r.stopBits = 1)
    (bits : r.dataBits = 7 ∨ r.dataBits = 8) : profileBytes f = r.payload := by
  obtain ⟨divisor, seven, parity, gap, codeAt, checksum, start⟩ := same
  have dataBits : (if f.sevenBits then 7 else 8 : Byte) = r.dataBits := by
    rcases bits with e | e <;> simp [seven, e]
  simp only [profileBytes, ProfileRecord.payload, dataBits, divisor, parity, gap, codeAt, checksum, start,
    beBytes_toNat, byteOf_toNat, stop]

/-- A profile that is legal bars nothing but a change of the checksum in a reading phase (R132). -/
theorem profileWriteActs_legal {r : ProfileRecord} {f : Profile} (legal : ProfileLegal r) (same : ProfileIs f r)
    (s : State) : profileWriteActs r s =
      if s.readingPhase ∧ (s.pch.profile.checksum.code ≠ r.checksum ∨ s.pch.profile.start ≠ r.start.toNat) then
        refuse .badState s
      else accept r.payload (setProfile f s) := by
  have bytes : profileBytes f = r.payload := by
    obtain ⟨-, bits, -, stop, -⟩ := legal
    exact profileBytes_eq same stop bits
  have kind : f.checksum ≠ s.pch.profile.checksum ↔ s.pch.profile.checksum.code ≠ r.checksum := by
    rw [← same.checksum, not_iff_not, eq_comm, checksumCode_inj]
  have start : f.start ≠ s.pch.profile.start ↔ s.pch.profile.start ≠ r.start.toNat := by rw [← same.start, ne_comm]
  simp only [profileWriteActs, profileOf_eq_some_iff.2 ⟨legal, same⟩, bytes, kind, start]

theorem exec_profileWrite (tag : Byte) (r : ProfileRecord) {s : State} (ready : Ready s) :
    exec (.profileWrite tag r) s = .next (answered tag
      ((profileWriteActs r s).2.status.code :: (profileWriteActs r s).2.bytes) (profileWriteActs r s).1) :=
  congrArg Host.Outcome.next (takeCommand_ready ready)

theorem exec_profileRead (tag : Byte) {s : State} (ready : Ready s) :
    exec (.profileRead tag) s = .next (answered tag (0x00 :: profileBytes s.pch.profile) s) :=
  congrArg Host.Outcome.next (takeCommand_ready ready)

/-! ### The templates -/

theorem templateIsRegister_of_gt {which : Byte} (h : 1 < which.toNat) : templateIsRegister which = none := by
  unfold templateIsRegister
  split
  · omega
  · omega
  · rfl

theorem templateBytes_eq (r : TemplateRecord) : templateBytes r = r.payload := by
  rw [templateBytes, beBytes_toNat]
  rfl

/-- The choice of a template in one byte (11.7). -/
def whichByte (register : Bool) : Byte := if register then 1 else 0

theorem templateIsRegister_whichByte (register : Bool) : templateIsRegister (whichByte register) = some register := by
  cases register <;> rfl

theorem exists_whichByte {which : Byte} (h : which.toNat ≤ 1) : ∃ register, whichByte register = which := by
  have : which = 0 ∨ which = 1 := by bv_omega
  rcases this with rfl | rfl
  · exact ⟨false, rfl⟩
  · exact ⟨true, rfl⟩

/-- A template is legal with an empty body, or with its fields and its encoding in their ranges (R136, 8.3). -/
theorem templateOk_iff {register : Bool} {r : TemplateRecord} :
    templateOk register r = true ↔ TemplateLegal (whichByte register) r := by
  have encoding : encodingAllowed register r.encoding = true ↔
      (whichByte register = 0 ∧ r.encoding = 0) ∨
        (whichByte register = 1 ∧ 1 ≤ r.encoding.toNat ∧ r.encoding.toNat ≤ 3) := by
    cases register
    · simp [encodingAllowed, whichByte, ← BitVec.toNat_inj]
    · simp [encodingAllowed, whichByte, inRange_iff]
  simp only [templateOk, TemplateLegal, Bool.or_eq_true, Bool.and_eq_true, List.isEmpty_iff, inRange_iff,
    decide_eq_true_eq, encoding, and_assoc]

theorem templateWriteActs_illegal {which : Byte} {r : TemplateRecord} (s : State)
    (h : 1 < which.toNat ∨ ¬ TemplateLegal which r) : templateWriteActs which r s = refuse .badArg s := by
  by_cases known : 1 < which.toNat
  · rw [templateWriteActs, templateIsRegister_of_gt known]
  · obtain ⟨register, rfl⟩ := exists_whichByte (Nat.not_lt.1 known)
    have illegal : templateOk register r = false :=
      Bool.eq_false_iff.2 (mt templateOk_iff.1 (h.resolve_left known))
    simp only [templateWriteActs, templateIsRegister_whichByte, illegal, Bool.not_false, if_true]

/-- A template that is legal bars nothing but that of REGISTER_READ in a reading phase (R136). -/
theorem templateWriteActs_legal {which : Byte} {r : TemplateRecord} (s : State) (register : Bool)
    (legal : TemplateLegal which r) (choice : which = whichByte register) : templateWriteActs which r s =
      if register ∧ s.readingPhase then refuse .badState s
      else accept (which :: r.payload) (setTemplate register r s) := by
  subst choice
  simp only [templateWriteActs, templateIsRegister_whichByte, templateBytes_eq, templateOk_iff.2 legal, Bool.not_true,
    Bool.false_eq_true, if_false]

theorem exec_templateWrite (tag which : Byte) (r : TemplateRecord) {s : State} (ready : Ready s) :
    exec (.templateWrite tag which r) s = .next (answered tag
      ((templateWriteActs which r s).2.status.code :: (templateWriteActs which r s).2.bytes)
      (templateWriteActs which r s).1) :=
  congrArg Host.Outcome.next (takeCommand_ready ready)

theorem exec_templateRead (tag which : Byte) {s : State} (ready : Ready s) :
    exec (.templateRead tag which) s = .next (answered tag
      ((templateReadActs which s).2.status.code :: (templateReadActs which s).2.bytes) (templateReadActs which s).1) :=
  congrArg Host.Outcome.next (takeCommand_ready ready)

/-! ### The claim -/

/-- Settles O10: a record stands for a profile exactly where it is legal, and a template is judged by its choice. -/
theorem profileAndTemplateCommands : Obligations.ProfileAndTemplateCommands := by
  unfold Obligations.ProfileAndTemplateCommands
  constructor
  · refine fun tag s ready => ⟨fun r illegal => ?_, fun r legal reading changed => ?_, fun r legal kept => ?_,
      fun r same stop bits => ?_⟩
    · rw [exec_profileWrite tag r ready, profileWriteActs, profileOf_illegal illegal]
      rfl
    · obtain ⟨f, same⟩ := exists_profile legal
      rw [exec_profileWrite tag r ready, profileWriteActs_legal legal same, if_pos ⟨reading, changed⟩]
      rfl
    · obtain ⟨f, same⟩ := exists_profile legal
      refine ⟨f, same, ?_⟩
      have allowed : ¬ (s.readingPhase = true ∧
          (s.pch.profile.checksum.code ≠ r.checksum ∨ s.pch.profile.start ≠ r.start.toNat)) := by
        rintro ⟨reading, changed⟩
        obtain ⟨kind, start⟩ := kept reading
        exact changed.elim (absurd kind) (absurd start)
      rw [exec_profileWrite tag r ready, profileWriteActs_legal legal same, if_neg allowed]
      rfl
    · rw [exec_profileRead tag ready, profileBytes_eq same stop bits]
  · refine fun tag s ready => ⟨fun which r refused => ?_, fun r legal => ?_, fun r legal rests => ?_,
      fun r legal reading => ?_, ?_, ?_, fun which unknown => ?_⟩
    · rw [exec_templateWrite tag which r ready, templateWriteActs_illegal s refused]
      rfl
    · rw [exec_templateWrite tag 0 r ready, templateWriteActs_legal s false legal rfl,
        if_neg fun barred => nomatch barred.1]
      rfl
    · rw [exec_templateWrite tag 1 r ready, templateWriteActs_legal s true legal rfl,
        if_neg fun barred => by simp [rests] at barred]
      rfl
    · rw [exec_templateWrite tag 1 r ready, templateWriteActs_legal s true legal rfl, if_pos ⟨rfl, reading⟩]
      rfl
    · rw [exec_templateRead tag 0 ready, ← templateBytes_eq]
      rfl
    · rw [exec_templateRead tag 1 ready, ← templateBytes_eq]
      rfl
    · rw [exec_templateRead tag which ready, templateReadActs, templateIsRegister_of_gt unknown]
      rfl

end Sys2Proof.Proofs.Settings
end
section
/-! PROOFS. IDENTIFY queues one request for each position that can take it (R145). -/

namespace Sys2Proof.Proofs.Channels

open Sys2Proof.Machine Sys2Proof.Safety Sys2Proof.Proofs.Payloads

/-! ### An act on the channels of some positions -/

/-- Each channel of a list of positions replaced by what an act makes of it. -/
def eachChan (l : List Pos) (f : Channel → Channel) (s : State) : State :=
  forEach l (fun p t => t.setChan p (f (t.chan p))) s

@[simp] theorem eachChan_cons (p : Pos) (l : List Pos) (f : Channel → Channel) (s : State) :
    eachChan (p :: l) f s = eachChan l f (s.setChan p (f (s.chan p))) := rfl

theorem eachChan_channels_only (l : List Pos) (f : Channel → Channel) (s : State) :
    eachChan l f s = { s with pch := { s.pch with channels := (eachChan l f s).pch.channels } } := by
  induction l generalizing s with
  | nil => rfl
  | cons p l ih => exact ih (s.setChan p (f (s.chan p)))

theorem eachChan_chan_of_not_mem {l : List Pos} {q : Pos} (h : q ∉ l) (f : Channel → Channel) (s : State) :
    (eachChan l f s).chan q = s.chan q := by
  induction l generalizing s with
  | nil => rfl
  | cons p l ih =>
    obtain ⟨other, rest⟩ := not_or.1 (List.mem_cons.not.1 h)
    rw [eachChan_cons, ih rest, State.setChan_chan_ne s other]

theorem eachChan_chan_of_mem {l : List Pos} {q : Pos} (once : l.Nodup) (h : q ∈ l) (f : Channel → Channel) (s : State) :
    (eachChan l f s).chan q = f (s.chan q) := by
  induction l generalizing s with
  | nil => cases h
  | cons p l ih =>
    obtain ⟨fresh, once⟩ := List.nodup_cons.1 once
    rw [eachChan_cons]
    by_cases e : q = p
    · subst e
      rw [eachChan_chan_of_not_mem fresh, State.setChan_chan_self]
    · rw [ih once ((List.mem_cons.1 h).resolve_left e), State.setChan_chan_ne s e]

/-! ### One request -/

/-- A channel with an empty internal slot that was given an IDENTIFY request: an IDLE one sends it, a busy one keeps it
(R142). -/
def givenIdentify (t : Transaction) (c : Channel) : Channel :=
  match c.state with
  | .idle => sendingChannel c t
  | _ => { c with internal := some .identify }

theorem givenIdentify_idle {c : Channel} (idle : c.state = .idle) (t : Transaction) :
    givenIdentify t c = sendingChannel c t := by rw [givenIdentify, idle]

theorem givenIdentify_busy {c : Channel} (busy : c.state ≠ .idle) (t : Transaction) :
    givenIdentify t c = { c with internal := some .identify } := by
  unfold givenIdentify
  split
  · contradiction
  · rfl

/-- A channel that was given a request is not IDLE: it sends, or it was busy before. -/
theorem givenIdentify_not_idle (t : Transaction) (c : Channel) : (givenIdentify t c).state ≠ .idle := by
  by_cases idle : c.state = .idle
  · rw [givenIdentify_idle idle]
    exact fun e => nomatch e
  · rwa [givenIdentify_busy idle]

/-- An IDENTIFY request that is placed in an empty slot (R142, R145). -/
theorem placeTemplate_identify {s : State} {p : Pos} (empty : (s.chan p).internal = none) (owed : NoOwedRead s)
    (body : s.pch.identify.body ≠ []) :
    placeTemplate p .identify s = s.setChan p (givenIdentify (identifyTransaction s) (s.chan p)) := by
  let given : Channel := { s.chan p with internal := some .identify }
  have placed : (s.setChan p given).chan p = given := State.setChan_chan_self ..
  have cleared : { s.chan p with internal := none } = s.chan p := by rw [← empty]
  have start : placeTemplate p .identify s = tryStart p (s.setChan p given) := rfl
  rw [start]
  by_cases idle : (s.chan p).state = .idle
  · rw [givenIdentify_idle idle, tryStart_template (q := .identify) (congrArg Channel.state placed |>.trans idle)
      (congrArg Channel.internal placed) body, placed]
    have sent : (s.setChan p given).setChan p (sendingChannel { given with internal := none } (identifyTransaction s)) =
        s.setChan p (sendingChannel (s.chan p) (identifyTransaction s)) := by
      rw [State.setChan_setChan]
      exact congrArg (fun c => s.setChan p (sendingChannel c (identifyTransaction s))) cleared
    exact (placeOwed_of_not_owed (s := (s.setChan p given).setChan p _) (owed p)).trans sent
  · rw [givenIdentify_busy idle]
    exact tryStart_of_nothing fun e => absurd ((congrArg Channel.state placed).symm.trans e) idle

/-- The requests of an IDENTIFY go to their channels each for itself. -/
theorem placeTemplates_identify {s : State} {l : List Pos} (once : l.Nodup)
    (empty : ∀ p ∈ l, (s.chan p).internal = none) (owed : NoOwedRead s) (body : s.pch.identify.body ≠ []) :
    forEach l (fun p t => placeTemplate p .identify t) s = eachChan l (givenIdentify (identifyTransaction s)) s := by
  induction l generalizing s with
  | nil => rfl
  | cons p l ih =>
    obtain ⟨fresh, once⟩ := List.nodup_cons.1 once
    rw [forEach, List.foldl_cons, placeTemplate_identify (empty p List.mem_cons_self) owed body, eachChan_cons]
    refine ih (s := s.setChan p _) once (fun q member => ?_) owed body
    have other : q ≠ p := fun e => fresh (e ▸ member)
    rw [State.setChan_chan_ne s other]
    exact empty q (List.mem_cons_of_mem p member)

/-! ### IDENTIFY -/

/-- The masked positions that can take a request (R145). -/
def identifyTakers (mask : Word16) (s : State) : List Pos :=
  (maskPositions mask).filter fun p => decide (identifyAnswer s p = 0)

theorem identifyAnswer_empty {s : State} {p : Pos} (h : (s.pos p).state = .empty) : identifyAnswer s p = 2 := if_pos h

theorem identifyAnswer_busy {s : State} {p : Pos} (h : (s.pos p).state ≠ .empty) (occupied : (s.chan p).internal ≠ none) :
    identifyAnswer s p = 1 := by
  rw [identifyAnswer, if_neg h, Option.isNone_eq_false_iff.2 (Option.ne_none_iff_isSome.1 occupied),
    if_neg Bool.false_ne_true]

theorem identifyAnswer_queued {s : State} {p : Pos} (h : (s.pos p).state ≠ .empty) (free : (s.chan p).internal = none) :
    identifyAnswer s p = 0 := by
  rw [identifyAnswer, if_neg h, free, Option.isNone_none, if_pos rfl]

theorem identifyAnswer_eq_zero_iff {s : State} {p : Pos} :
    identifyAnswer s p = 0 ↔ (s.pos p).state ≠ .empty ∧ (s.chan p).internal = none := by
  refine ⟨fun queued => ?_, fun ⟨h, free⟩ => identifyAnswer_queued h free⟩
  by_cases h : (s.pos p).state = .empty
  · rw [identifyAnswer_empty h] at queued
    exact absurd queued (by decide)
  · refine ⟨h, ?_⟩
    by_contra occupied
    rw [identifyAnswer_busy h occupied] at queued
    exact absurd queued (by decide)

theorem mem_identifyTakers {mask : Word16} {s : State} {p : Pos} :
    p ∈ identifyTakers mask s ↔ p ∈ maskPositions mask ∧ (s.pos p).state ≠ .empty ∧ (s.chan p).internal = none := by
  rw [identifyTakers, List.mem_filter, decide_eq_true_iff, identifyAnswer_eq_zero_iff]

theorem nodup_identifyTakers (mask : Word16) (s : State) : (identifyTakers mask s).Nodup :=
  (nodup_maskPositions mask).filter _

/-- What IDENTIFY leaves of the channels (R145). -/
def identified (mask : Word16) (s : State) : State :=
  eachChan (identifyTakers mask s) (givenIdentify (identifyTransaction s)) s

theorem identified_taker {mask : Word16} {s : State} {p : Pos} (h : p ∈ identifyTakers mask s) :
    (identified mask s).chan p = givenIdentify (identifyTransaction s) (s.chan p) :=
  eachChan_chan_of_mem (nodup_identifyTakers mask s) h _ s

theorem identified_other {mask : Word16} {s : State} {p : Pos} (h : p ∉ identifyTakers mask s) :
    (identified mask s).chan p = s.chan p := eachChan_chan_of_not_mem h _ s

/-- Where IDENTIFY leaves a channel IDLE, it left it as it was, and nothing waits there (R142). -/
theorem identified_idleEmpty (mask : Word16) {s : State} (served : Served s) : IdleEmpty (identified mask s) := by
  intro p idle
  by_cases h : p ∈ identifyTakers mask s
  · rw [identified_taker h] at idle
    exact absurd idle (givenIdentify_not_idle _ _)
  · rw [identified_other h] at idle ⊢
    exact (served p idle).1

/-- The outcomes of an IDENTIFY in its answer (11.7). -/
def identifyOutcomes (mask : Word16) (s : State) : List Byte :=
  (maskPositions mask).flatMap fun p => [posByte p, identifyAnswer s p]

theorem length_identifyOutcomes (mask : Word16) (s : State) :
    (identifyOutcomes mask s).length = 2 * (maskPositions mask).length :=
  length_flatMap_of_size (f := fun p => [posByte p, identifyAnswer s p]) (fun _ => rfl) _

theorem field_identifyOutcomes {mask : Word16} (s : State) {k : Nat} {p : Pos} (place : (maskPositions mask)[k]? = some p) :
    field (identifyOutcomes mask s) (2 * k) 2 = [posByte p, identifyAnswer s p] :=
  field_flatMap (f := fun p => [posByte p, identifyAnswer s p]) (fun _ => rfl) place

theorem identifyActs_taken {mask : Word16} {s : State} (legal : MaskLegal mask) (served : Served s)
    (owed : NoOwedRead s) (body : s.pch.identify.body ≠ []) : identifyActs mask s =
      accept (byteOf (maskPositions mask).length :: identifyOutcomes mask s) (buildDue (identified mask s)) := by
  have free : ∀ p ∈ identifyTakers mask s, (s.chan p).internal = none := fun p h => (mem_identifyTakers.1 h).2.2
  have placed := placeTemplates_identify (nodup_identifyTakers mask s) free owed body
  rw [identifyActs, if_neg fun refused => maskRefused_iff.1 refused legal]
  rw [identifyTakers] at placed
  rw [placed]
  exact congrArg (accept _) (settle_of_idleEmpty (identified_idleEmpty mask served))

theorem exec_identify (tag : Byte) (mask : Word16) {s : State} (ready : Ready s) :
    exec (.identify tag mask) s = .next (answered tag
      ((identifyActs mask s).2.status.code :: (identifyActs mask s).2.bytes) (identifyActs mask s).1) :=
  congrArg Host.Outcome.next (takeCommand_ready ready)

/-- Settles O39: the answer has one part for each masked position, and each channel takes its request for itself. -/
theorem identifyQueuesRequests : Obligations.IdentifyQueuesRequests := by
  unfold Obligations.IdentifyQueuesRequests
  refine fun tag mask s ready => ⟨fun illegal => ?refused, fun legal served owed body =>
    ⟨identified mask s, identifyOutcomes mask s, ?taken, eachChan_channels_only .., length_identifyOutcomes mask s,
      fun p unmasked => ?unmasked, fun k p place => ?masked⟩⟩
  case refused =>
    rw [exec_identify tag mask ready, identifyActs, if_pos (maskRefused_iff.2 illegal)]
    rfl
  case taken =>
    rw [exec_identify tag mask ready, identifyActs_taken legal served owed body]
    rfl
  case unmasked =>
    refine identified_other fun taker => ?_
    rw [mem_identifyTakers, mem_maskPositions, unmasked] at taker
    exact Bool.false_ne_true taker.1
  case masked =>
    have outcome := field_identifyOutcomes s place
    have other (h : ¬ ((s.pos p).state ≠ .empty ∧ (s.chan p).internal = none)) :
        (identified mask s).chan p = s.chan p := identified_other fun taker => h (mem_identifyTakers.1 taker).2
    rw [outcome]
    refine ⟨fun empty => ⟨other fun taker => taker.1 empty, ?_⟩,
      fun loaded occupied => ⟨other fun taker => occupied taker.2, ?_⟩, fun loaded free => ?_⟩
    · rw [identifyAnswer_empty empty]
      rfl
    · rw [identifyAnswer_busy loaded occupied]
      rfl
    · have taker : p ∈ identifyTakers mask s := mem_identifyTakers.2 ⟨List.mem_of_getElem? place, loaded, free⟩
      rw [identifyAnswer_queued loaded free, identified_taker taker]
      exact ⟨rfl, fun idle => givenIdentify_idle idle _, fun busy => givenIdentify_busy busy _⟩

end Sys2Proof.Proofs.Channels
end
section
/-! PROOFS. The patches of a frame rule (R157, R158): each field holds the bytes of its source in its byte order, every
other byte stands as it was sent, and a patched frame carries the checksum of what it now holds. -/

namespace Sys2Proof.Proofs.Frames

open Sys2Proof.Machine Sys2Proof.Safety Sys2Proof.Proofs.Payloads

/-! ### One field written -/

theorem length_overwrite {o : Nat} {bytes frame : List Byte} (fits : o + bytes.length ≤ frame.length) :
    (overwrite o bytes frame).length = frame.length := by
  simp only [overwrite, List.length_append, List.length_take, List.length_drop]
  omega

theorem getElem?_overwrite_inside {o i : Nat} {bytes frame : List Byte} (fits : o + bytes.length ≤ frame.length)
    (inside : i < bytes.length) : (overwrite o bytes frame)[o + i]? = bytes[i]? := by
  have head : (frame.take o).length = o := by rw [List.length_take]; omega
  rw [overwrite, List.append_assoc, List.getElem?_append_right (by omega), head, Nat.add_sub_cancel_left,
    List.getElem?_append_left inside]

theorem getElem?_overwrite_outside {o k : Nat} {bytes frame : List Byte} (fits : o + bytes.length ≤ frame.length)
    (outside : k < o ∨ o + bytes.length ≤ k) : (overwrite o bytes frame)[k]? = frame[k]? := by
  have head : (frame.take o).length = o := by rw [List.length_take]; omega
  rw [overwrite, List.append_assoc]
  rcases outside with before | behind
  · rw [List.getElem?_append_left (by omega), List.getElem?_take_of_lt before]
  · rw [List.getElem?_append_right (by omega), head, List.getElem?_append_right (by omega), List.getElem?_drop]
    congr 1
    omega

/-- The bytes of a field are those that stand at its places. -/
theorem field_eq_of_getElem? {l bytes : List Byte} {o : Nat} (h : ∀ i, i < bytes.length → l[o + i]? = bytes[i]?) :
    field l o bytes.length = bytes := by
  refine List.ext_getElem? fun i => ?_
  rw [field, List.getElem?_take, List.getElem?_drop]
  split
  · exact h i ‹_›
  · exact (List.getElem?_eq_none (by omega)).symm

/-! ### What the fields of a rule write -/

/-- The bytes a patch field writes, in its byte order, if its source has a value (R157). -/
def writes (s : State) (p : Pos) (x : Patch) : Option (List Byte) :=
  (sourceBytes (s.pos p) p s.srs.nextSeal x.source).map (orderBytes x.little)

theorem patchWrites_iff {s : State} {p : Pos} {x : Patch} {bytes : List Byte} :
    PatchWrites s p x bytes ↔ writes s p x = some bytes := by
  have raw (v : Option (List Byte)) : v.map (orderBytes x.little) = some bytes ↔
      ∃ raw, bytes = (if x.little then raw.reverse else raw) ∧ v = some raw := by
    rw [Option.map_eq_some_iff]
    exact ⟨fun ⟨a, h, e⟩ => ⟨a, e.symm, h⟩, fun ⟨a, e, h⟩ => ⟨a, h, e.symm⟩⟩
  rw [writes, raw, PatchWrites]
  refine exists_congr fun r => and_congr_right fun _ => ?_
  cases x.source with
  | gain =>
    simp only [sourceBytes, pendingGain, Option.some.injEq]
    cases (s.pos p).correction <;> exact eq_comm
  | phase =>
    simp only [sourceBytes, pendingPhase]
    cases (s.pos p).correction with
    | none => simp
    | some c => cases h : c.phase <;> simp [h, eq_comm]
  | sealNumber => simp [sourceBytes, eq_comm]
  | position => simp [sourceBytes, posByte, byteOf, posNumber, eq_comm]

theorem patchSize_eq (x : PatchSource) : patchSize x = sourceSize x := by cases x <;> rfl

theorem length_orderBytes (little : Bool) (bytes : List Byte) : (orderBytes little bytes).length = bytes.length := by
  cases little
  · rfl
  · exact List.length_reverse

theorem length_sourceBytes {r : PositionRecord} {p : Pos} {number : Nat} {x : PatchSource} {bytes : List Byte}
    (h : sourceBytes r p number x = some bytes) : bytes.length = sourceSize x := by
  cases x with
  | gain => cases h; exact length_intBytes ..
  | phase =>
    obtain ⟨w, -, rfl⟩ := Option.map_eq_some_iff.1 h
    exact length_intBytes ..
  | sealNumber => cases h; exact length_beBytes ..
  | position => cases h; rfl

/-- A field writes as many bytes as its source covers (9.1). -/
theorem length_of_writes {s : State} {p : Pos} {x : Patch} {bytes : List Byte} (h : writes s p x = some bytes) :
    bytes.length = sourceSize x.source := by
  obtain ⟨raw, known, rfl⟩ := Option.map_eq_some_iff.1 h
  rw [length_orderBytes, length_sourceBytes known]

/-- All fields of a list written into a frame, one after the other. -/
def patched (s : State) (p : Pos) (l : List Patch) (frame : List Byte) : List Byte :=
  l.foldl (writePatch (sourceBytes (s.pos p) p s.srs.nextSeal)) frame

theorem writePatch_none {s : State} {p : Pos} {x : Patch} (h : writes s p x = none) (frame : List Byte) :
    writePatch (sourceBytes (s.pos p) p s.srs.nextSeal) frame x = frame := by
  simp only [writePatch, Option.map_eq_none_iff.1 h]

theorem writePatch_some {s : State} {p : Pos} {x : Patch} {bytes : List Byte} (h : writes s p x = some bytes)
    (frame : List Byte) :
    writePatch (sourceBytes (s.pos p) p s.srs.nextSeal) frame x = overwrite x.offset bytes frame := by
  obtain ⟨raw, known, rfl⟩ := Option.map_eq_some_iff.1 h
  simp only [writePatch, known]

/-- The fields end within a length. -/
def FieldsWithin (l : List Patch) (n : Nat) : Prop := ∀ x ∈ l, x.offset + sourceSize x.source ≤ n

theorem length_writePatch (s : State) (p : Pos) {x : Patch} {frame : List Byte}
    (fits : x.offset + sourceSize x.source ≤ frame.length) :
    (writePatch (sourceBytes (s.pos p) p s.srs.nextSeal) frame x).length = frame.length := by
  cases h : writes s p x with
  | none => rw [writePatch_none h]
  | some bytes =>
    rw [writePatch_some h, length_overwrite]
    rwa [length_of_writes h]

theorem length_patched (s : State) (p : Pos) {l : List Patch} {frame : List Byte} (fits : FieldsWithin l frame.length) :
    (patched s p l frame).length = frame.length := by
  induction l generalizing frame with
  | nil => rfl
  | cons x l ih =>
    obtain ⟨first, rest⟩ := List.forall_mem_cons.1 fits
    have kept := length_writePatch s p first
    exact (ih (by rwa [kept])).trans kept

/-- A byte that no field covers stands as it was. -/
theorem getElem?_patched_outside {s : State} {p : Pos} {l : List Patch} {frame : List Byte} {k : Nat}
    (fits : FieldsWithin l frame.length)
    (outside : ∀ x ∈ l, ∀ bytes, writes s p x = some bytes → k < x.offset ∨ x.offset + bytes.length ≤ k) :
    (patched s p l frame)[k]? = frame[k]? := by
  induction l generalizing frame with
  | nil => rfl
  | cons x l ih =>
    obtain ⟨first, rest⟩ := List.forall_mem_cons.1 fits
    obtain ⟨own, others⟩ := List.forall_mem_cons.1 outside
    refine (ih (by rwa [length_writePatch s p first]) others).trans ?_
    cases h : writes s p x with
    | none => rw [writePatch_none h]
    | some bytes =>
      rw [writePatch_some h]
      exact getElem?_overwrite_outside (by rwa [length_of_writes h]) (own bytes h)

/-- Where no two fields cover a common byte, each holds what it writes (R148, R157). -/
theorem getElem?_patched_inside {s : State} {p : Pos} {l : List Patch} {frame : List Byte} {x : Patch}
    {bytes : List Byte} {i : Nat} (fits : FieldsWithin l frame.length)
    (apart : l.Pairwise fun x y => x.offset + sourceSize x.source ≤ y.offset ∨ y.offset + sourceSize y.source ≤ x.offset)
    (member : x ∈ l) (h : writes s p x = some bytes) (inside : i < bytes.length) :
    (patched s p l frame)[x.offset + i]? = bytes[i]? := by
  induction l generalizing frame with
  | nil => cases member
  | cons y l ih =>
    obtain ⟨first, rest⟩ := List.forall_mem_cons.1 fits
    obtain ⟨own, others⟩ := List.pairwise_cons.1 apart
    have kept : FieldsWithin l (writePatch (sourceBytes (s.pos p) p s.srs.nextSeal) frame y).length := by
      rwa [length_writePatch s p first]
    rcases List.mem_cons.1 member with rfl | later
    · have size := length_of_writes h
      refine (getElem?_patched_outside kept fun z hz b hb => ?_).trans ?_
      · have := own z hz
        have := length_of_writes hb
        omega
      · rw [writePatch_some h]
        exact getElem?_overwrite_inside (by rwa [size]) inside
    · exact ih kept others later

/-! ### The checksum -/

theorem length_checksumOf (kind : ChecksumKind) (l : List Byte) : (checksumOf kind l).length = checksumSize kind := by
  cases kind <;> simp [checksumOf, checksumSize]

theorem checksumSize_le (kind : ChecksumKind) : checksumSize kind ≤ 2 := by cases kind <;> decide

theorem anyWritten_iff {s : State} {p : Pos} {l : List Patch} :
    l.any (fun x => (sourceBytes (s.pos p) p s.srs.nextSeal x.source).isSome) = true ↔
      ∃ x ∈ l, ∃ bytes, PatchWrites s p x bytes := by
  simp only [List.any_eq_true, patchWrites_iff, writes, ← Option.isSome_iff_exists, Option.isSome_map]

/-- Where some field writes, the checksum is computed anew (R158). -/
theorem patchedFrame_of_written {s : State} {p : Pos} {f : FrameRule}
    (h : ∃ x ∈ f.patches, ∃ bytes, PatchWrites s p x bytes) (frame : List Byte) :
    patchedFrame f (sourceBytes (s.pos p) p s.srs.nextSeal) s.pch.profile frame =
      recomputeChecksum s.pch.profile.checksum s.pch.profile.start (patched s p f.patches frame) :=
  if_pos (anyWritten_iff.2 h)

/-- Where no field writes, the frame stays as it was sent (R158). -/
theorem patchedFrame_of_not_written {s : State} {p : Pos} {f : FrameRule}
    (h : ¬ ∃ x ∈ f.patches, ∃ bytes, PatchWrites s p x bytes) (frame : List Byte) :
    patchedFrame f (sourceBytes (s.pos p) p s.srs.nextSeal) s.pch.profile frame = frame :=
  if_neg (mt anyWritten_iff.1 h)

/-- A frame that its rule patches is patched as R157 and R158 say. -/
theorem patchedFrame_patchedAs {s : State} {p : Pos} {f : FrameRule} {frame : List Byte} (long : 2 ≤ frame.length)
    (placed : PatchesPlaced s f frame.length) (apart : PatchesApart f) :
    PatchedAs s p f frame (patchedFrame f (sourceBytes (s.pos p) p s.srs.nextSeal) s.pch.profile frame) := by
  have sum := checksumSize_le s.pch.profile.checksum
  have fits : FieldsWithin f.patches frame.length := fun x member => by
    have := placed x member
    omega
  have patchedLength := length_patched s p fits
  have body : ((patched s p f.patches frame).take
      (frame.length - checksumSize s.pch.profile.checksum)).length =
        frame.length - checksumSize s.pch.profile.checksum := by
    rw [List.length_take, patchedLength]
    omega
  have within {k : Nat} (inside : k < frame.length - checksumSize s.pch.profile.checksum) :
      (recomputeChecksum s.pch.profile.checksum s.pch.profile.start (patched s p f.patches frame))[k]? =
        (patched s p f.patches frame)[k]? := by
    rw [recomputeChecksum, patchedLength, withChecksum, List.getElem?_append_left (by rwa [body]),
      List.getElem?_take_of_lt inside]
  by_cases written : ∃ x ∈ f.patches, ∃ bytes, PatchWrites s p x bytes
  · rw [patchedFrame_of_written written]
    refine ⟨?size, fun x member bytes h => ?fields, fun k inside outside => ?rest, fun _ _ => ?sum,
      fun none => absurd written none⟩
    case size =>
      rw [recomputeChecksum, withChecksum, patchedLength, List.length_append, body, frameChecksum, length_checksumOf]
      omega
    case fields =>
      rw [patchWrites_iff] at h
      refine field_eq_of_getElem? fun i inside => ?_
      have := placed x member
      rw [within (by rw [length_of_writes h] at inside; omega)]
      exact getElem?_patched_inside fits apart member h inside
    case rest =>
      rw [within inside]
      exact getElem?_patched_outside fits fun x member bytes h => outside x member bytes (patchWrites_iff.2 h)
    case sum =>
      rw [recomputeChecksum, patchedLength, withChecksum, List.drop_left' body, List.take_left' body, frameChecksum]
  · rw [patchedFrame_of_not_written written]
    exact ⟨rfl, fun x member bytes h => absurd ⟨x, member, bytes, h⟩ written, fun _ _ _ => rfl,
      fun some => absurd some written, fun _ => rfl⟩

end Sys2Proof.Proofs.Frames
end
section
/-! PROOFS. The judgement of a PORT frame (R150 to R152, R168), and the acceptance of a SEAL frame. -/

namespace Sys2Proof.Proofs.Frames

open Sys2Proof.Machine Sys2Proof.Safety Sys2Proof.Proofs.Payloads Sys2Proof.Proofs.Settings Sys2Proof.Proofs.Serving
  Sys2Proof.Proofs.Channels

/-! ### The frame's rule -/

theorem codeMatches_iff {f : FrameRule} {code : Word16} : codeMatches f code = true ↔
    ∀ k : Fin 16, f.mask.getLsbD k.val = false → code.getLsbD k.val = f.value.getLsbD k.val := by
  have place (k : Nat) (inside : k < 16) : (((code ^^^ f.value) &&& ~~~f.mask).getLsbD k = false) ↔
      (f.mask.getLsbD k = false → code.getLsbD k = f.value.getLsbD k) := by
    simp only [BitVec.getLsbD_and, BitVec.getLsbD_xor, BitVec.getLsbD_not, inside, decide_true, Bool.true_and]
    cases code.getLsbD k <;> cases f.value.getLsbD k <;> simp
  rw [codeMatches, beq_iff_eq]
  constructor
  · intro zero k
    rw [← place k.val k.isLt, zero]
    exact BitVec.getLsbD_zero
  · intro same
    refine BitVec.eq_of_getLsbD_eq fun k inside => ?_
    rw [(place k inside).2 (same ⟨k, inside⟩)]
    exact BitVec.getLsbD_zero.symm

theorem matches_iff {s : State} {frame : List Byte} {f : FrameRule} : Matches s frame f ↔
    (f.enabled && codeMatches f (objectCode s.pch.profile.codeAt frame)) = true := by
  rw [Bool.and_eq_true, codeMatches_iff]
  rfl

/-- The frame's rule is the first enabled one that it matches (R151). -/
theorem ruleFor_of_ruleOf {s : State} {frame : List Byte} {f : FrameRule} (h : RuleOf s frame f) :
    s.ruleFor (objectCode s.pch.profile.codeAt frame) = some f := by
  obtain ⟨i, rfl, found, first⟩ := h
  refine List.find?_eq_some_iff_getElem.2 ⟨matches_iff.1 found, i.val, by simp, by simp, fun j before => ?_⟩
  have unmatched := first ⟨j, before.trans i.isLt⟩ before
  rw [matches_iff, Bool.not_eq_true] at unmatched
  simpa only [Bool.not_eq_true', Vector.getElem_toList] using unmatched

/-! ### What refuses a frame -/

theorem firstHolds_none_iff {l : List (Prop × Status)} : FirstHolds l none ↔ ∀ c ∈ l, ¬ c.1 := by
  induction l with
  | nil => simp [FirstHolds]
  | cons c l ih =>
    rw [FirstHolds, ih, List.forall_mem_cons]
    constructor
    · rintro ⟨first, rest⟩
      have off : ¬ c.1 := fun on => nomatch first on
      exact ⟨off, rest off⟩
    · rintro ⟨off, rest⟩
      exact ⟨fun on => absurd on off, fun _ => rest⟩

theorem stateAllowed_iff {f : FrameRule} {x : PosState} : stateAllowed f x = true ↔ Allowed f x := by
  cases x <;> simp [stateAllowed, Allowed]

theorem patchesFit_iff {s : State} {f : FrameRule} {length : Nat} :
    patchesFit f s.pch.profile.checksum length = true ↔ PatchesPlaced s f length := by
  simp only [patchesFit, PatchesPlaced, List.all_eq_true, decide_eq_true_eq, patchSize_eq]

/-- No condition of R168 refuses a SEAL frame. -/
structure SealAllowed (s : State) (p : Pos) (f : FrameRule) (length : Nat) : Prop where
  allowed  : Allowed f (s.pos p).state
  verified : (s.pos p).state = .verified
  rests    : p ∉ s.psc.running ∧ (s.pos p).inFlight = .none
  scanned  : s.srs.phase = .over
  load     : s.srs.jobs.length + s.srs.liveFlows < 28
  room     : s.srs.freeCount ≠ 0 ∧ s.srs.nextSeal < 4294967296
  placed   : PatchesPlaced s f length
  empty    : (s.chan p).relay = .empty

theorem sealAllowed_of_conditions {s : State} {p : Pos} {f : FrameRule} {length : Nat} (action : f.action = .seal)
    (h : FirstHolds (ruleConditions s p f length) none) : SealAllowed s p f length := by
  rw [firstHolds_none_iff, ruleConditions, actionConditions, action] at h
  simp only [List.cons_append, List.nil_append, List.forall_mem_cons, List.not_mem_nil, false_implies, implies_true,
    and_true, not_or, not_not, not_le] at h
  obtain ⟨allowed, ⟨verified, rests⟩, ⟨scanned, load⟩, room, placed, empty⟩ := h
  exact ⟨allowed, verified, rests, scanned, load, room, placed, empty⟩

theorem sealRefusal_of_allowed {s : State} {p : Pos} {f : FrameRule} {length : Nat} (h : SealAllowed s p f length) :
    sealRefusal f p length s = none := by
  obtain ⟨absent, unwritten⟩ := h.rests
  obtain ⟨free, numbers⟩ := h.room
  rw [sealRefusal, if_neg, if_neg, if_neg, patchesFit_iff.2 h.placed]
  · rfl
  · exact not_or.2 ⟨free, Nat.not_le.2 numbers⟩
  · exact not_or.2 ⟨by simp [State.scanning, h.scanned], Nat.not_le.2 h.load⟩
  · exact not_or.2 ⟨not_not.2 h.verified, not_or.2 ⟨by simpa [State.isRunning] using absent, not_not.2 unwritten⟩⟩

/-- A SEAL frame that no condition refuses has its rule for its judgement (R152). -/
theorem portJudgement_seal {s : State} {p : Pos} {f : FrameRule} {frame : List Byte} (rule : RuleOf s frame f)
    (action : f.action = .seal) (long : s.pch.profile.codeAt + 2 ≤ frame.length) (h : SealAllowed s p f frame.length) :
    portJudgement p frame s = .inr f := by
  have loaded : (s.pos p).state ≠ .empty := by simp [h.verified]
  have free : (s.chan p).relayFree = true := by rw [Channel.relayFree, h.empty]
  simp only [portJudgement, if_neg loaded, if_neg (Nat.not_lt.2 long), ruleRefusal, ruleFor_of_ruleOf rule,
    stateAllowed_iff.2 h.allowed, actionRefusal, action, sealRefusal_of_allowed h, free, Bool.not_true,
    Bool.false_eq_true, if_false, if_true]

/-! ### The taking of a PORT command -/

theorem posOf_number (p : Pos) : posOf (BitVec.ofNat 8 (p.val + 1)).toNat = some p := by
  have value : (BitVec.ofNat 8 (p.val + 1)).toNat = p.val + 1 := by
    rw [BitVec.toNat_ofNat]
    exact Nat.mod_eq_of_lt (by omega)
  rw [value, posOf, dif_pos (by omega)]
  rfl

theorem exec_port_ready {s : State} (ready : PortReady s) (tag position : Byte) (frame : List Byte) :
    exec (.port tag position frame) s = .next (portActs tag position frame s) := by
  obtain ⟨awake, room⟩ := ready
  have free : s.portFull = false := by
    rw [State.portFull, answersFull_of_room (by omega), Bool.false_or]
    exact decide_eq_false (Nat.not_le.2 room)
  refine congrArg Host.Outcome.next ?_
  rw [takePort, deaf_of_awake awake, free, if_neg Bool.false_ne_true, if_neg Bool.false_ne_true]

theorem portActs_accepted {s : State} {p : Pos} {f : FrameRule} {frame : List Byte} (nonempty : frame ≠ [])
    (short : frame.length ≤ 240) (judged : portJudgement p frame s = .inr f) (tag : Byte) :
    portActs tag (BitVec.ofNat 8 (p.val + 1)) frame s = acceptFrame tag f p frame s := by
  have inside : inRange 1 240 frame.length = true := inRange_iff.2 ⟨List.length_pos_iff.2 nonempty, short⟩
  simp only [portActs, posOf_number, inside, judged, Bool.not_true, Bool.false_eq_true, if_false]

/-! ### The acceptance of a seal -/

/-- The header job of an accepted seal joins the queue of the store, or starts where none runs (R168, R172). -/
theorem acceptSeal_spec {s : State} {p : Pos} (scanned : s.srs.phase = .over)
    (settled : s.srs.running ≠ none ∨ s.srs.queue = []) : ∃ queue running,
      acceptSeal p s = startWrite p .seal { sealReserved p s with
        srs := { (sealReserved p s).srs with queue := queue, running := running } } ∧
      (s.srs.running ≠ none → running = s.srs.running ∧
        queue = s.srs.queue ++ [.header s.srs.pointer (flowHeader p s.srs.nextSeal s)]) ∧
      (s.srs.running = none → queue = [] ∧
        running = some (.header s.srs.pointer (flowHeader p s.srs.nextSeal s))) := by
  rw [acceptSeal_eq]
  by_cases idle : s.srs.running = none
  · have empty : s.srs.queue = [] := settled.resolve_left (not_not_intro idle)
    have starts := queueJob_starts (s := sealReserved p s)
      (j := .header s.srs.pointer (flowHeader p s.srs.nextSeal s)) scanned idle empty fun _ => rfl
    refine ⟨[], some _, congrArg (startWrite p .seal) (starts.trans ?_), fun busy => absurd idle busy,
      fun _ => ⟨rfl, rfl⟩⟩
    rw [← empty]
    rfl
  · have waits := queueJob_waits (s := sealReserved p s) (.header s.srs.pointer (flowHeader p s.srs.nextSeal s))
      (.inr idle)
    exact ⟨_, s.srs.running, congrArg (startWrite p .seal) waits, fun _ => ⟨rfl, rfl⟩, fun none => absurd none idle⟩

/-- A request that must wait leaves its channel as it is (R142, R143). -/
theorem handRelay_waits {s : State} {p : Pos} {r : RelayRequest} (unsendable : r.sendable = false)
    (served : (s.chan p).state = .idle → (s.chan p).internal = none) :
    handRelay p r s = s.setChan p { s.chan p with relay := .waiting r } := by
  have waits : (s.setChan p { s.chan p with relay := .waiting r }).chan p = { s.chan p with relay := .waiting r } :=
    State.setChan_chan_self ..
  refine tryStart_of_nothing fun idle => ?_
  rw [waits] at idle ⊢
  exact ⟨served idle, fun q e => by cases e; exact unsendable⟩

/-- The relay request of an accepted SEAL frame, which waits for its header (R143, R168). -/
def sealRequest (tag : Byte) (f : FrameRule) (frame : List Byte) (s : State) : RelayRequest :=
  { tag := tag, frame := frame, sendable := false, expectReply := f.expectReply, timeout := f.timeout,
    kind := .seal s.srs.nextSeal, ack := f.ack }

/-- An accepted seal with these jobs in the store: its position SEALING, and its request in the relay slot (R168). -/
def sealAccepted (p : Pos) (r : RelayRequest) (queue : List Job) (running : Option Job) (s : State) : State :=
  owing { ((s.setPos p { s.pos p with state := .sealing, inFlight := .seal }).setChan p
      { s.chan p with relay := .waiting r }) with
    srs := { (sealReserved p s).srs with queue := queue, running := running } }

/-- The reservation, the number and the flow of an accepted seal (R166, R167). -/
theorem sealAccepted_store {s : State} (canonical : StoreCanonical s) (p : Pos) (r : RelayRequest) (queue : List Job)
    (running : Option Job) :
    ReservationIs s.srs (sealAccepted p r queue running s).srs s.srs.pointer
        (some { number := s.srs.nextSeal, pos := p }) ∧
      (sealAccepted p r queue running s).flow p = some { number := s.srs.nextSeal, slot := s.srs.pointer } ∧
      ∀ q, q ≠ p → (sealAccepted p r queue running s).flow q = s.flow q := by
  have reserved := Srs.reservation_setReservation canonical s.srs.pointer
  exact ⟨⟨(reserved _ _).trans (if_pos rfl), fun n other => (reserved n _).trans (if_neg other)⟩, atPos_putPos_self ..,
    fun q other => atPos_putPos_ne _ other _⟩

theorem acceptFrame_seal {s : State} {p : Pos} {f : FrameRule} (tag : Byte) (frame : List Byte)
    (action : f.action = .seal) (served : Served s) (scanned : s.srs.phase = .over)
    (settled : s.srs.running ≠ none ∨ s.srs.queue = []) : ∃ queue running,
      acceptFrame tag f p frame s = sealAccepted p (sealRequest tag f
        (patchedFrame f (sourceBytes (s.pos p) p s.srs.nextSeal) s.pch.profile frame) s) queue running s ∧
      (s.srs.running ≠ none → running = s.srs.running ∧
        queue = s.srs.queue ++ [.header s.srs.pointer (flowHeader p s.srs.nextSeal s)]) ∧
      (s.srs.running = none → queue = [] ∧
        running = some (.header s.srs.pointer (flowHeader p s.srs.nextSeal s))) := by
  obtain ⟨queue, running, accepted, jobs⟩ := acceptSeal_spec (p := p) scanned settled
  have acted : actionEffects f p s = acceptSeal p s := by rw [actionEffects, action]
  have request : relayRequestOf tag f p frame s = sealRequest tag f
      (patchedFrame f (sourceBytes (s.pos p) p s.srs.nextSeal) s.pch.profile frame) s := by
    simp [relayRequestOf, relayKindOf, sealRequest, action]
  refine ⟨queue, running, ?_, jobs⟩
  rw [acceptFrame, acted, accepted, request]
  exact handRelay_waits (s := oweAnswer _) rfl fun idle => (served p idle).1

/-- Settles O45: with no condition to refuse it the frame is judged by its rule, and its acceptance does the four acts of
R168 on the store and the position before the request goes to its slot. -/
theorem sealFrameAccepted : Obligations.SealFrameAccepted := by
  unfold Obligations.SealFrameAccepted
  intro tag p frame f s ready served canonical nonempty short long rule conditions apart action settled
  have h := sealAllowed_of_conditions action conditions
  have judged := portJudgement_seal rule action long h
  obtain ⟨queue, running, accepted, busy, idle⟩ := acceptFrame_seal tag frame (p := p) action served h.scanned settled
  obtain ⟨reservation, flow, flows⟩ := sealAccepted_store canonical p (sealRequest tag f
    (patchedFrame f (sourceBytes (s.pos p) p s.srs.nextSeal) s.pch.profile frame) s) queue running
  refine ⟨_, _, patchedFrame_patchedAs (by omega) h.placed apart, ?_, rfl, rfl, rfl, reservation, flow, flows, rfl, rfl,
    rfl, rfl, busy, idle⟩
  rw [exec_port_ready ready, portActs_accepted nonempty short judged, accepted]

end Sys2Proof.Proofs.Frames
end
section
/-! PROOFS. The end of a header job (R143, R165, R169, R173): its frame becomes sendable, or its flow takes a new slot or
ends STORE_FULL. -/

namespace Sys2Proof.Proofs.Seals

open Sys2Proof.Machine Sys2Proof.Safety Sys2Proof.Proofs.Channels Sys2Proof.Proofs.Serving

/-! ### The store at the end of a job -/

/-- The state with no job running, from which the next one starts (R172). -/
def jobless (s : State) : State := { s with srs := { s.srs with running := none } }

theorem exec_jobStart (s : State) : exec .jobStart s = .next (buildDue (tryJobs s)) := rfl

/-- A header job ends with its acts, and then the next job starts (R169, R172). -/
theorem headerJobEnd_jobEnded {s : State} {slot : Nat} {h : Header} (running : s.srs.running = some (.header slot h))
    (scanned : s.srs.phase = .over) (ok : Bool) : JobEnded (.headerJobEnd ok) s
      (jobless (if ok then headerProgrammedActs slot h s else headerFailed slot h s)) := by
  refine ⟨rfl, _, ?_, exec_jobStart _⟩
  refine congrArg Host.Outcome.next ?_
  simp only [headerJobEnd, running, scanned, if_true]
  rfl

/-- A programmed number moves the highest one, if it is higher, and nothing else (R165). -/
theorem noteNumber_spec (r : Srs) (number slot : Nat) : ∃ x,
    r.noteNumber number slot = { r with highest := x } ∧ HighestAfter r { r with highest := x } number slot := by
  unfold Srs.noteNumber
  cases high : r.highest with
  | none =>
    refine ⟨_, rfl, fun k e => ?_, fun _ => rfl⟩
    rw [high] at e
    cases e
  | some k =>
    by_cases higher : k.1 < number
    · refine ⟨some (number, sectorOf slot), if_pos higher, fun k' e below => ?_, fun _ => rfl⟩
      rw [high, Option.some_inj] at e
      subst e
      omega
    · refine ⟨some k, (if_neg higher).trans (by rw [← high]), fun k' e _ => high ▸ e, fun above => ?_⟩
      rcases above with none | ⟨k', e, above⟩
      · rw [high] at none
        cases none
      · rw [high, Option.some_inj] at e
        subst e
        exact absurd above higher

theorem setSlot_holds {r : Srs} (canonical : r.canonical) (slot : Nat) (c : SlotContents) :
    SlotHolds r (r.setSlot slot c) slot c :=
  ⟨(Srs.slot_setSlot canonical ..).trans (if_pos rfl), fun _ other => (Srs.slot_setSlot canonical ..).trans (if_neg other)⟩

theorem setReservation_is {r : Srs} (canonical : r.canonical) (slot : Nat) (v : Option Reservation) :
    ReservationIs r (r.setReservation slot v) slot v :=
  ⟨(Srs.reservation_setReservation canonical ..).trans (if_pos rfl),
    fun _ other => (Srs.reservation_setReservation canonical ..).trans (if_neg other)⟩

/-! ### A header programmed -/

theorem carriesNumber_iff {number : Nat} {r : RelayRequest} : carriesNumber number r = true ↔ r.kind = .seal number := by
  unfold carriesNumber
  split
  · rename_i kind
    rw [kind, decide_eq_true_iff, RelayKind.seal.injEq]
  · rename_i other
    exact ⟨fun e => (nomatch e), fun e => absurd e (other number)⟩

theorem setChan_own (s : State) (p : Pos) : s.setChan p (s.chan p) = s := by
  have same : putPos s.pch.channels p (atPos s.pch.channels p) = s.pch.channels := Vector.set_getElem_self ..
  simp only [State.setChan, State.chan, same]

theorem makeSendable_of_waits {s : State} {p : Pos} {number : Nat} {r : RelayRequest} (h : SealWaits s p number r) :
    makeSendable p number s = handRelay p { r with sendable := true } s := by
  obtain ⟨waits, kind⟩ := h
  simp only [makeSendable, waits, carriesNumber_iff.2 kind, if_true]
  rfl

theorem makeSendable_of_none {s : State} {p : Pos} {number : Nat} (h : ¬ ∃ r, SealWaits s p number r) :
    makeSendable p number s = s := by
  unfold makeSendable
  split
  · rename_i r waits
    exact if_neg fun carries => h ⟨r, waits, carriesNumber_iff.1 carries⟩
  · rfl

/-- A sendable request that is handed to an IDLE channel starts there (R142). -/
theorem handRelay_idle {s : State} {p : Pos} {r : RelayRequest} (sendable : r.sendable = true)
    (idle : (s.chan p).state = .idle) (empty : (s.chan p).internal = none) :
    handRelay p r s = s.setChan p (sendingChannel { s.chan p with relay := .empty } (relayOf s r)) := by
  have given : (s.setChan p { s.chan p with relay := .waiting r }).chan p = { s.chan p with relay := .waiting r } :=
    State.setChan_chan_self ..
  rw [handRelay, tryStart_relay (r := r) (by rw [given]; exact idle) (by rw [given]; exact empty) (by rw [given])
    sendable, given, State.setChan_setChan]
  rfl

/-- A busy channel keeps the request that it is handed (R142). -/
theorem handRelay_busy {s : State} {p : Pos} (busy : (s.chan p).state ≠ .idle) (r : RelayRequest) :
    handRelay p r s = s.setChan p { s.chan p with relay := .waiting r } := by
  have given : (s.setChan p { s.chan p with relay := .waiting r }).chan p = { s.chan p with relay := .waiting r } :=
    State.setChan_chan_self ..
  refine tryStart_of_nothing fun idle => absurd ?_ busy
  rwa [given] at idle

/-- What a programmed header does at the channel of its flow (R143). -/
theorem makeSendable_spec {s : State} {p : Pos} (free : (s.chan p).internal = none ∨ (s.chan p).state ≠ .idle)
    (number : Nat) : ∃ c, makeSendable p number s = s.setChan p c ∧
      ((¬ ∃ r, SealWaits s p number r) → c = s.chan p) ∧
      ∀ r, SealWaits s p number r →
        ((s.chan p).state = .idle →
          c = sendingChannel { s.chan p with relay := .empty } (relayOf s { r with sendable := true })) ∧
        ((s.chan p).state ≠ .idle → c = { s.chan p with relay := .waiting { r with sendable := true } }) := by
  by_cases flow : ∃ r, SealWaits s p number r
  · obtain ⟨r, waits⟩ := flow
    have only : ∀ r', SealWaits s p number r' → r' = r := fun r' other => by
      have := other.1.symm.trans waits.1
      cases this
      rfl
    rw [makeSendable_of_waits waits]
    by_cases idle : (s.chan p).state = .idle
    · refine ⟨_, handRelay_idle rfl idle (free.resolve_right (not_not_intro idle)), fun none => absurd ⟨r, waits⟩ none,
        fun r' other => ⟨fun _ => by rw [only r' other], fun busy => absurd idle busy⟩⟩
    · exact ⟨_, handRelay_busy idle _, fun none => absurd ⟨r, waits⟩ none,
        fun r' other => ⟨fun rests => absurd rests idle, fun _ => by rw [only r' other]⟩⟩
  · exact ⟨s.chan p, (makeSendable_of_none flow).trans (setChan_own s p).symm, fun _ => rfl,
      fun r waits => absurd ⟨r, waits⟩ flow⟩

/-! ### A header failed -/

/-- The store after a failed header job: the failure note in its slot, no reservation, and the highest number (R165). -/
def headerLost (slot number : Nat) (highest : Option (Nat × Nat)) (r : Srs) : Srs :=
  { (r.setSlot slot { r.slot slot with note := some (some number) }).setReservation slot none with highest := highest }

theorem failedSlot_spec (r : Srs) (slot : Nat) (h : Header) : ∃ x,
    failedSlot (.header slot h) slot h.number r = headerLost slot h.number x r ∧
      HighestAfter r (headerLost slot h.number x r) h.number slot := noteNumber_spec ..

section
variable {r : Srs} (canonical : r.canonical) (slot number : Nat) (x : Option (Nat × Nat))
include canonical

theorem headerLost_slot : SlotHolds r (headerLost slot number x r) slot { r.slot slot with note := some (some number) } :=
  setSlot_holds canonical slot _

theorem headerLost_canonical : (headerLost slot number x r).canonical :=
  Srs.setReservation_canonical (Srs.setSlot_canonical canonical slot _) slot none

theorem headerLost_reservation : ReservationIs r (headerLost slot number x r) slot none :=
  setReservation_is (r := r.setSlot slot { r.slot slot with note := some (some number) })
    (Srs.setSlot_canonical canonical slot _) slot none

end

theorem isFree_of_reserved {r : Srs} {n : Nat} (h : (r.reservation n).isSome = true) : r.isFree n = false := by
  simp [Srs.isFree, Srs.slotState, h]

/-- A slot that is not free before and after leaves the free count (R166). -/
theorem freeCount_congr {r r' : Srs} (pointer : r'.pointer = r.pointer) (free : ∀ n, r'.isFree n = r.isFree n) :
    r'.freeCount = r.freeCount := by simp only [Srs.freeCount, pointer, free]

/-- The slot of a failed header was not free before, and its failure note keeps it from being free (R165, R166). -/
theorem headerLost_freeCount {r : Srs} (canonical : r.canonical) {slot : Nat}
    (reserved : (r.reservation slot).isSome = true) (number : Nat) (x : Option (Nat × Nat)) :
    (headerLost slot number x r).freeCount = r.freeCount := by
  obtain ⟨own, others⟩ := headerLost_slot canonical slot number x
  obtain ⟨dropped, kept⟩ := headerLost_reservation canonical slot number x
  refine freeCount_congr rfl fun n => ?_
  by_cases h : n = slot
  · subst h
    have bad : (headerLost n number x r).slotState n = .bad := by
      simp only [Srs.slotState, dropped, own, SlotContents.classify, Option.isSome_none, Bool.false_eq_true, if_false]
    rw [isFree_of_reserved reserved, Srs.isFree, bad]
    rfl
  · have same : (headerLost slot number x r).slotState n = r.slotState n := by
      simp only [Srs.slotState, kept n h, others n h]
    rw [Srs.isFree, same]
    rfl

/-- With a slot free, the one at the pointer is (R166). -/
theorem isFree_pointer {r : Srs} (inside : r.pointer < 1024) (h : 1 ≤ r.freeCount) : r.isFree r.pointer = true := by
  have first : (r.pointer + 0) % Config.storeSlots = r.pointer := Nat.mod_eq_of_lt inside
  by_contra taken
  rw [Bool.not_eq_true] at taken
  have slots : List.range Config.storeSlots = 0 :: (List.range 1023).map Nat.succ := List.range_succ_eq_map
  have none : r.freeCount = 0 := by rw [Srs.freeCount, slots, List.takeWhile_cons_of_neg (by rw [first, taken]; exact Bool.false_ne_true)]; rfl
  omega

theorem liveFlow_iff {s : State} {h : Header} : liveFlow h s = true ↔ FlowLive s h := by
  unfold liveFlow FlowLive
  cases flow : s.flow h.pos with
  | none => simp
  | some f => simp

/-- The state after a failed header job, before its flow goes on or ends (R165). -/
def afterLoss (slot : Nat) (h : Header) (x : Option (Nat × Nat)) (s : State) : State :=
  setSrs (headerLost slot h.number x s.srs) s

section
variable {s : State} {slot : Nat} {h : Header} {x : Option (Nat × Nat)}
  (failed : failedSlot (.header slot h) slot h.number s.srs = headerLost slot h.number x s.srs)
include failed

/-- A failed header job without a live flow queues nothing (R173). -/
theorem headerFailed_dead (dead : ¬ FlowLive s h) : headerFailed slot h s = afterLoss slot h x s := by
  have off : liveFlow h (afterLoss slot h x s) = false := Bool.eq_false_iff.2 (mt liveFlow_iff.1 dead)
  rw [afterLoss] at off ⊢
  simp only [headerFailed, failed, off, Bool.false_eq_true, if_false]

/-- A live flow takes the next slot, or with none free it ends (R169). -/
theorem headerFailed_live (canonical : StoreCanonical s) (reserved : (s.srs.reservation slot).isSome = true)
    (live : FlowLive s h) : headerFailed slot h s =
      if s.srs.freeCount = 0 then flowStoreFull h (afterLoss slot h x s) else retryHeader h (afterLoss slot h x s) := by
  have on : liveFlow h (afterLoss slot h x s) = true := liveFlow_iff.2 live
  have free : (afterLoss slot h x s).srs.freeCount = s.srs.freeCount :=
    headerLost_freeCount canonical reserved h.number x
  rw [afterLoss] at on free ⊢
  simp only [headerFailed, failed, on, free, if_true]

end

/-- The store after a flow took the slot at the pointer, its header job behind the others (R166, R169). -/
def headerRetried (h : Header) (s : State) : State :=
  { s with srs := { s.srs.reserve h.number h.pos with
    flows := putPos s.srs.flows h.pos (some { number := h.number, slot := s.srs.pointer }),
    queue := s.srs.queue ++ [.header s.srs.pointer h] } }

theorem retryHeader_eq {s : State} (running : s.srs.running ≠ none) (h : Header) :
    retryHeader h s = headerRetried h s := queueJob_waits _ (.inr running)

theorem headerRetried_reservation {s : State} (canonical : s.srs.canonical) (h : Header) :
    ReservationIs s.srs (headerRetried h s).srs s.srs.pointer (some { number := h.number, pos := h.pos }) :=
  setReservation_is canonical _ _

/-! ### A flow that ends unsent -/

/-- The position and the flow of a seal that ends unsent (R169). -/
def flowEnded (h : Header) (s : State) : State :=
  (s.setFlow h.pos none).setPos h.pos ((s.pos h.pos).sealEnds false)

theorem offerFromSlot_srs (p : Pos) (a : PortAnswer) (s : State) : (offerFromSlot p a s).srs = s.srs := by
  unfold offerFromSlot
  split <;> rfl

theorem flowStoreFull_srs (h : Header) (s : State) : (flowStoreFull h s).srs = (flowEnded h s).srs := by
  unfold flowStoreFull endUnsent
  repeat' split
  · exact offerFromSlot_srs ..
  · rfl
  · rfl

theorem flowStoreFull_of_waits {s : State} {h : Header} {r : RelayRequest} (waits : SealWaits s h.pos h.number r) :
    flowStoreFull h s = offerFromSlot h.pos (.storeFull r.tag) (flowEnded h s) := by
  obtain ⟨slot, kind⟩ := waits
  have own : ((flowEnded h s).chan h.pos).relay = .waiting r := slot
  show endUnsent h.pos h.number (flowEnded h s) = _
  simp only [endUnsent, own, carriesNumber_iff.2 kind, if_true]

theorem mustHold_iff {s : State} : s.mustHold = true ↔ 8 ≤ s.bli.answers.length ∨ s.bli.held ≠ [] := by
  have full : s.answersFull = true ↔ 8 ≤ s.bli.answers.length := decide_eq_true_iff
  rw [State.mustHold, Bool.or_eq_true, full, Bool.not_eq_true', List.isEmpty_eq_false_iff]

/-- An answer from a relay slot goes to the queue where it has room and none is held (R185). -/
theorem offerFromSlot_queued {s : State} (room : s.bli.answers.length < 8) (held : s.bli.held = []) (p : Pos)
    (a : PortAnswer) : offerFromSlot p a s =
      pushPortAnswer a ((settleOwed s).setChan p { s.chan p with relay := .empty }) := by
  refine if_neg fun holds => (mustHold_iff.1 holds).elim (fun full => ?_) fun some => some held
  omega

/-- Else it is held in the slot (R185). -/
theorem offerFromSlot_held {s : State} (h : 8 ≤ s.bli.answers.length ∨ s.bli.held ≠ []) (p : Pos) (a : PortAnswer) :
    offerFromSlot p a s =
      holdAnswer (.slot p) ((settleOwed s).setChan p { s.chan p with relay := .ended a }) := if_pos (mustHold_iff.2 h)

/-! ### The claim -/

/-- What a programmed header leaves, and how its job ends (R165, R169). -/
theorem headerProgrammed_ends {s : State} {slot : Nat} {h : Header} (running : s.srs.running = some (.header slot h))
    (scanned : s.srs.phase = .over) (free : (s.chan h.pos).internal = none ∨ (s.chan h.pos).state ≠ .idle) :
    ∃ x c, HighestAfter s.srs { s.srs with highest := x } h.number slot ∧
      JobEnded (.headerJobEnd true) s (jobless ((setSrs
        { s.srs.setSlot slot { s.srs.slot slot with header := .good h } with highest := x } s).setChan h.pos c)) ∧
      ((¬ ∃ r, SealWaits s h.pos h.number r) → c = s.chan h.pos) ∧
      ∀ r, SealWaits s h.pos h.number r →
        ((s.chan h.pos).state = .idle →
          c = sendingChannel { s.chan h.pos with relay := .empty } (relayOf s { r with sendable := true })) ∧
        ((s.chan h.pos).state ≠ .idle →
          c = { s.chan h.pos with relay := .waiting { r with sendable := true } }) := by
  obtain ⟨x, noted, highest⟩ :=
    noteNumber_spec (s.srs.setSlot slot { s.srs.slot slot with header := .good h }) h.number slot
  obtain ⟨c, sent, channel⟩ := makeSendable_spec (s := setSrs
    { s.srs.setSlot slot { s.srs.slot slot with header := .good h } with highest := x } s) (p := h.pos) free h.number
  have acts : headerProgrammedActs slot h s = (setSrs
      { s.srs.setSlot slot { s.srs.slot slot with header := .good h } with highest := x } s).setChan h.pos c := by
    rw [← sent, ← noted]
    rfl
  have ended := headerJobEnd_jobEnded running scanned true
  rw [if_pos rfl, acts] at ended
  exact ⟨x, c, highest, ended, channel⟩

/-- A live flow takes the next slot, which the failed one is not, for the failed one was no free slot (R166, R169). -/
theorem headerRetried_rewritten {s : State} {slot : Nat} (canonical : StoreCanonical s)
    (reserved : (s.srs.reservation slot).isSome = true) (inside : s.srs.pointer < 1024) (free : 1 ≤ s.srs.freeCount)
    (h : Header) (x : Option (Nat × Nat)) :
    Rewritten s.srs (jobless (headerRetried h (afterLoss slot h x s))).srs slot h.number h.pos := by
  have elsewhere : slot ≠ s.srs.pointer := by
    rintro rfl
    exact absurd (isFree_pointer inside free) (by rw [isFree_of_reserved reserved]; exact Bool.false_ne_true)
  obtain ⟨dropped, kept⟩ := headerLost_reservation canonical slot h.number x
  obtain ⟨taken, others⟩ := headerRetried_reservation (s := afterLoss slot h x s)
    (headerLost_canonical canonical slot h.number x) h
  exact ⟨(others slot elsewhere).trans dropped, taken, fun n other away => (others n away).trans (kept n other), rfl⟩

/-- The store after a flow ended unsent, with no job running (R169). -/
theorem flowStoreFull_store (h : Header) (s : State) :
    (jobless (flowStoreFull h s)).srs = (jobless (flowEnded h s)).srs :=
  congrArg (fun r : Srs => { r with running := none }) (flowStoreFull_srs h s)

/-- Settles O47: a header that is programmed hands its request to the channel again, now sendable; a failed one is lost to
the store, and what follows goes by whether its flow lives and a slot is free. -/
theorem headerJobEnds : Obligations.HeaderJobEnds := by
  unfold Obligations.HeaderJobEnds
  constructor
  · intro slot h s running scanned canonical free
    obtain ⟨x, c, highest, ended, channel⟩ := headerProgrammed_ends running scanned free
    have own : ((jobless ((setSrs { s.srs.setSlot slot { s.srs.slot slot with header := .good h } with highest := x }
        s).setChan h.pos c)).chan h.pos) = c := State.setChan_chan_self ..
    refine ⟨_, ended, rfl, setSlot_holds canonical slot _, highest, fun q other => State.setChan_chan_ne _ other _, ?_⟩
    rw [own]
    exact channel
  · intro slot h s running scanned canonical reserved inside
    obtain ⟨x, failed, highest⟩ := failedSlot_spec s.srs slot h
    have ended := headerJobEnd_jobEnded running scanned false
    rw [if_neg Bool.false_ne_true] at ended
    have slots := headerLost_slot canonical slot h.number x
    have lost := headerLost_reservation canonical slot h.number x
    by_cases live : FlowLive s h
    · rw [headerFailed_live failed canonical reserved live] at ended
      by_cases full : s.srs.freeCount = 0
      · rw [if_pos full] at ended
        have store := flowStoreFull_store h (afterLoss slot h x s)
        refine ⟨_, ended, by rw [store]; exact slots, by rw [store]; exact highest, by rw [store]; exact ⟨rfl, rfl, rfl⟩,
          fun dead => absurd live dead, fun _ free => by omega, fun _ _ => ⟨by rw [store]; exact lost, by rw [store]; rfl,
            by rw [store]; rfl, ?_, fun q other => ?_, fun r waits => ⟨fun room held => ?_, fun holds => ?_⟩⟩⟩
        · rw [State.flow, store]
          exact atPos_putPos_self ..
        · rw [State.flow, store]
          exact atPos_putPos_ne _ other _
        · rw [flowStoreFull_of_waits (s := afterLoss slot h x s) waits,
            offerFromSlot_queued (s := flowEnded h (afterLoss slot h x s)) room held]
          rfl
        · rw [flowStoreFull_of_waits (s := afterLoss slot h x s) waits,
            offerFromSlot_held (s := flowEnded h (afterLoss slot h x s)) holds]
          rfl
      · have busy : (afterLoss slot h x s).srs.running ≠ none := fun idle => nomatch running.symm.trans idle
        rw [if_neg full, retryHeader_eq busy] at ended
        exact ⟨_, ended, slots, highest, ⟨rfl, rfl, rfl⟩, fun dead => absurd live dead, fun _ free =>
          ⟨headerRetried_rewritten canonical reserved inside free h x, rfl, rfl, atPos_putPos_self ..,
            fun q other => atPos_putPos_ne _ other _⟩, fun _ none => absurd none full⟩
    · rw [headerFailed_dead failed live] at ended
      exact ⟨_, ended, slots, highest, ⟨rfl, rfl, rfl⟩, fun _ => ⟨lost, rfl⟩, fun on => absurd on live,
        fun on => absurd on live⟩

end Sys2Proof.Proofs.Seals
end
